-- ==== Sys2Proof/Word.lean ====
section
/-! DEFINITION. The two bit-vector types of CVX (00_scope.md R6, R9): bytes and 32-bit register words. -/

namespace Sys2Proof

/-- An 8-bit byte: a frame-buffer byte, POLY, INIT or the CRC (R6). -/
abbrev Byte := BitVec 8

/-- A 32-bit word: a register value on the bus, a command word, RESULT (R6). -/
abbrev Word := BitVec 32

end Sys2Proof
end

