-- ==== Sys2Proof/Config.lean ====
section
/-! DEFINITION. What an implementation of CVX fixes (the OPEN parameters of 00_scope.md R7) and the free
values of the model. None of the opaque constants has a body: nothing can be proved of a value of theirs. -/

namespace Sys2Proof.Config

/-- FREE VALUE (log entry 1). The byte the hardware returns for frame-buffer byte `i`, not written since reset,
to the bus access numbered `draw`: 10_state.md R34, 93_implementation_defined.md U1 ("any value", a fresh draw per
read). -/
opaque unwrittenFb : (draw : Nat) → (i : Nat) → Byte

/-- OPEN parameter CVX_BASE (R7, R50): the host address of window offset 0x00 (log entry 6). -/
opaque cvxBase : Nat

/-- OPEN parameter CMD_LATENCY (R7, R180): cycles a write of command word `w` to CMD is held. It may depend on the
command word, not on FB or CRC_CFG. No definition of the model depends on it (log entry 7). -/
opaque cmdLatency : (w : Word) → Nat

/-- The two electrical forms of `rst` that R170 leaves OPEN. -/
inductive ResetPolarity where
  | activeHigh
  | activeLow
  deriving DecidableEq, Repr, Inhabited

/-- See `ResetPolarity`. -/
inductive ResetSync where
  | synchronous
  | asynchronous
  deriving DecidableEq, Repr, Inhabited

/-- OPEN parameter RESET_POLARITY (R7, R170): no effect on an untimed model (log entry 8). -/
opaque resetPolarity : ResetPolarity

/-- OPEN parameter RESET_SYNC (R7, R170): no effect on an untimed model (log entry 8). -/
opaque resetSync : ResetSync

end Sys2Proof.Config
end

