-- ==== Sys2Proof/Syntax.lean ====
section
/-! DEFINITION. The commands of the CVX command set version 1 (00_scope.md R2): one constructor for each row of
spec/opcode_table.json, and the six command errors of 60_exceptions.md R150. -/

namespace Sys2Proof

/-- A CVX command. Operands are the numbers the assembler writes (30_encoding.md R77, R82): widths are the true
widths W and T, not the stored "minus one". -/
inductive Instr where
  /-- CRC.CALC n (R102): CRC of `FB[0..n-1]`. -/
  | crcCalc (n : Nat)
  /-- CRC.CHECK n (R103): the same CRC, compared with the trailer `FB[n]`. -/
  | crcCheck (n : Nat)
  /-- BFX pos, width (R110): the `width`-bit field whose most significant bit is frame bit `pos`. -/
  | bfx (pos width : Nat)
  /-- BCD byte, tens (R113): two BCD digits of `FB[byte]`, the tens digit `tens` bits wide. -/
  | bcd (byte tens : Nat)
  /-- FSEL 0 (R121). -/
  | fieldDeviceId
  /-- FSEL 1 (R122). -/
  | fieldTempRaw
  /-- FSEL 2 (R123). -/
  | fieldTempTenths
  /-- FSEL 3 (R124). -/
  | fieldHumidity
  /-- FSEL 4 (R125). -/
  | fieldWindAvg
  /-- FSEL 5 (R126). -/
  | fieldWindGust
  /-- FSEL 6 (R127). -/
  | fieldRain
  /-- FSEL 7 (R128). -/
  | fieldWindDir
  /-- FSEL 8 (R129). -/
  | fieldBatteryOk
  /-- FSEL 9 (R130). -/
  | fieldHours
  /-- FSEL 10 (R131). -/
  | fieldMinutes
  /-- FSEL 11 (R132). -/
  | fieldSeconds
  /-- FSEL 12 (R133). -/
  | fieldYear
  /-- FSEL 13 (R134). -/
  | fieldMonth
  /-- FSEL 14 (R135). -/
  | fieldDay
  /-- FSEL 15 (R136). -/
  | fieldSignalDcf77
  /-- FSEL 16 (R137). -/
  | fieldUvSensorId
  /-- FSEL 17 (R138). -/
  | fieldUvStatusOk
  /-- FSEL 18 (R139). -/
  | fieldUvIndex
  /-- FSEL 19 (R140). -/
  | fieldLightRaw
  /-- FSEL 20 (R141). -/
  | fieldMsgType
  deriving DecidableEq, Repr

/-- The command errors of R150; codes 7 to 15 are never produced, so they have no constructor. -/
inductive CmdError where
  /-- Code 1: OP is 0x0 or 0x6 to 0xF (R78). -/
  | illegalOp
  /-- Code 2: a reserved bit of the format is 1 (R71). -/
  | rsvdBits
  /-- Code 3: N > 11 for CRC.CALC, N > 10 for CRC.CHECK (R73). -/
  | crcLen
  /-- Code 4: POS + W > 88 (R74). -/
  | bfxRange
  /-- Code 5: BYTE > 10 (R75). -/
  | bcdByte
  /-- Code 6: FSEL > 20 (R76). -/
  | fieldSel
  deriving DecidableEq, Repr

end Sys2Proof
end

