-- ==== Sys2Proof/WellFormed.lean ====
section
/-! DEFINITION. Which terms of `Instr` are commands that a command word can carry (30_encoding.md R82): every operand
fits its encoding field. A well-formed command may still be refused by CVX for its operand's range
(Machine/Operands.lean, R81). -/

namespace Sys2Proof

/-- R82: "An assembler refuses an operand outside its field (n > 15, pos > 127, width outside 1 to 32, byte > 15,
tenswidth outside 1 to 4 ...)". The FIELD commands carry no operand of their own. -/
def Instr.wellFormed : Instr → Bool
  | .crcCalc n => n ≤ 15
  | .crcCheck n => n ≤ 15
  | .bfx pos width => pos ≤ 127 && 1 ≤ width && width ≤ 32
  | .bcd byte tens => byte ≤ 15 && 1 ≤ tens && tens ≤ 4
  | .fieldDeviceId | .fieldTempRaw | .fieldTempTenths | .fieldHumidity | .fieldWindAvg | .fieldWindGust
  | .fieldRain | .fieldWindDir | .fieldBatteryOk | .fieldHours | .fieldMinutes | .fieldSeconds | .fieldYear
  | .fieldMonth | .fieldDay | .fieldSignalDcf77 | .fieldUvSensorId | .fieldUvStatusOk | .fieldUvIndex
  | .fieldLightRaw | .fieldMsgType => true

end Sys2Proof
end

