-- ==== Sys2Proof/Decode.lean ====
section
/-! DEFINITION. The command word (30_encoding.md R70 to R83): field extraction, the decoder with its rejections by name,
and the encoder. The operand-range checks of R81 come after decoding, in Machine/Operands.lean: a command whose operand
is out of range is a command that CVX refuses, and it assembles (R82). -/

namespace Sys2Proof

/-- `v[hi:lo]` of R9: the unsigned number in bits `hi` down to `lo`. -/
def bits (v : Word) (hi lo : Nat) : Nat := (v.toNat >>> lo) % 2 ^ (hi + 1 - lo)

/-- R80: the command that FSEL names; FSEL 21 to 31 name none. -/
def fieldOfSelect : Nat → Option Instr
  | 0 => some .fieldDeviceId
  | 1 => some .fieldTempRaw
  | 2 => some .fieldTempTenths
  | 3 => some .fieldHumidity
  | 4 => some .fieldWindAvg
  | 5 => some .fieldWindGust
  | 6 => some .fieldRain
  | 7 => some .fieldWindDir
  | 8 => some .fieldBatteryOk
  | 9 => some .fieldHours
  | 10 => some .fieldMinutes
  | 11 => some .fieldSeconds
  | 12 => some .fieldYear
  | 13 => some .fieldMonth
  | 14 => some .fieldDay
  | 15 => some .fieldSignalDcf77
  | 16 => some .fieldUvSensorId
  | 17 => some .fieldUvStatusOk
  | 18 => some .fieldUvIndex
  | 19 => some .fieldLightRaw
  | 20 => some .fieldMsgType
  | _ => none

/-- Format C (R73), both commands: `w[31:8]` must be 0, N is `w[7:4]`. -/
def decodeC (command : Nat → Instr) (w : Word) : Except CmdError Instr :=
  if bits w 31 8 ≠ 0 then .error .rsvdBits else .ok (command (bits w 7 4))

/-- Format X (R74): `w[31:16]` must be 0, WM1 is `w[15:11]`, POS is `w[10:4]`. -/
def decodeX (w : Word) : Except CmdError Instr :=
  if bits w 31 16 ≠ 0 then .error .rsvdBits else .ok (.bfx (bits w 10 4) (bits w 15 11 + 1))

/-- Format D (R75): `w[31:10]` must be 0, TW is `w[9:8]`, BYTE is `w[7:4]`. -/
def decodeD (w : Word) : Except CmdError Instr :=
  if bits w 31 10 ≠ 0 then .error .rsvdBits else .ok (.bcd (bits w 7 4) (bits w 9 8 + 1))

/-- Format F (R76): `w[31:9]` must be 0, FSEL is `w[8:4]`. -/
def decodeF (w : Word) : Except CmdError Instr :=
  if bits w 31 9 ≠ 0 then .error .rsvdBits
  else match fieldOfSelect (bits w 8 4) with
    | some i => .ok i
    | none => .error .fieldSel

/-- R72 and the first two checks of R81 (and FIELD_SEL, which is the range check of format F): OP first, then the
reserved bits of the format. -/
def decode (w : Word) : Except CmdError Instr :=
  match bits w 3 0 with
  | 0x1 => decodeC .crcCalc w
  | 0x2 => decodeC .crcCheck w
  | 0x3 => decodeX w
  | 0x4 => decodeD w
  | 0x5 => decodeF w
  | _ => .error .illegalOp

/-- R76, R82: `FIELD fsel` assembles to `(fsel << 4) | 0x5`, also for the reserved FSEL 21 to 31. -/
def encodeF (fsel : Nat) : Word := BitVec.ofNat 32 fsel <<< 4 ||| 0x5#32

/-- R82: the command word of each command. -/
def encode : Instr → Word
  | .crcCalc n => BitVec.ofNat 32 n <<< 4 ||| 0x1#32
  | .crcCheck n => BitVec.ofNat 32 n <<< 4 ||| 0x2#32
  | .bfx pos width => BitVec.ofNat 32 (width - 1) <<< 11 ||| BitVec.ofNat 32 pos <<< 4 ||| 0x3#32
  | .bcd byte tens => BitVec.ofNat 32 (tens - 1) <<< 8 ||| BitVec.ofNat 32 byte <<< 4 ||| 0x4#32
  | .fieldDeviceId => encodeF 0
  | .fieldTempRaw => encodeF 1
  | .fieldTempTenths => encodeF 2
  | .fieldHumidity => encodeF 3
  | .fieldWindAvg => encodeF 4
  | .fieldWindGust => encodeF 5
  | .fieldRain => encodeF 6
  | .fieldWindDir => encodeF 7
  | .fieldBatteryOk => encodeF 8
  | .fieldHours => encodeF 9
  | .fieldMinutes => encodeF 10
  | .fieldSeconds => encodeF 11
  | .fieldYear => encodeF 12
  | .fieldMonth => encodeF 13
  | .fieldDay => encodeF 14
  | .fieldSignalDcf77 => encodeF 15
  | .fieldUvSensorId => encodeF 16
  | .fieldUvStatusOk => encodeF 17
  | .fieldUvIndex => encodeF 18
  | .fieldLightRaw => encodeF 19
  | .fieldMsgType => encodeF 20

/-- R82: an assembler writes the word of a command whose operands fit their fields and refuses any other. -/
def assemble (i : Instr) : Option Word := if i.wellFormed then some (encode i) else none

/-- R82: `FIELD fsel`, refused above 31. -/
def assembleField (fsel : Nat) : Option Word := if fsel ≤ 31 then some (encodeF fsel) else none

/-- R82: the assembler line of each command, operands in decimal. -/
def assemblyText : Instr → String
  | .crcCalc n => "CRC.CALC " ++ toString n
  | .crcCheck n => "CRC.CHECK " ++ toString n
  | .bfx pos width => "BFX " ++ toString pos ++ ", " ++ toString width
  | .bcd byte tens => "BCD " ++ toString byte ++ ", " ++ toString tens
  | .fieldDeviceId => "FIELD.DEVICE_ID"
  | .fieldTempRaw => "FIELD.TEMP_RAW"
  | .fieldTempTenths => "FIELD.TEMP_TENTHS"
  | .fieldHumidity => "FIELD.HUMIDITY"
  | .fieldWindAvg => "FIELD.WIND_AVG"
  | .fieldWindGust => "FIELD.WIND_GUST"
  | .fieldRain => "FIELD.RAIN"
  | .fieldWindDir => "FIELD.WIND_DIR"
  | .fieldBatteryOk => "FIELD.BATTERY_OK"
  | .fieldHours => "FIELD.HOURS"
  | .fieldMinutes => "FIELD.MINUTES"
  | .fieldSeconds => "FIELD.SECONDS"
  | .fieldYear => "FIELD.YEAR"
  | .fieldMonth => "FIELD.MONTH"
  | .fieldDay => "FIELD.DAY"
  | .fieldSignalDcf77 => "FIELD.SIGNAL_DCF77"
  | .fieldUvSensorId => "FIELD.UV_SENSOR_ID"
  | .fieldUvStatusOk => "FIELD.UV_STATUS_OK"
  | .fieldUvIndex => "FIELD.UV_INDEX"
  | .fieldLightRaw => "FIELD.LIGHT_RAW"
  | .fieldMsgType => "FIELD.MSG_TYPE"

/-- The command the decoder reads from a command word given as a number, bit 0 the least significant. Every command is
one 32-bit word (R70), which crosses the bus whole (20_memory.md R59), so there are no bytes to lay out. -/
def decodeTableWord (nbits w : Nat) : Option Instr :=
  if nbits ≤ 32 then
    match decode (BitVec.ofNat 32 (w % 2 ^ nbits)) with
    | .ok i => some i
    | .error _ => none
  else none

end Sys2Proof
end

