-- ==== Sys2Proof/Machine/State.lean ====
section
/-! DEFINITION. The state of CVX (10_state.md), the bus events its host drives it with (20_memory.md R52, R60), the
reasons a step can stop, and the state after reset (70_reset_and_hazards.md R171). -/

namespace Sys2Proof.Machine

/-- The access sizes a host may try (R52, R53); only `word` is defined. -/
inductive AccessSize where
  | byte
  | half
  | word
  deriving DecidableEq, Repr

/-- One event at the port of CVX (20_memory.md R65). Offsets are window offsets (R11, R52); Machine/Window.lean says how a
host address becomes one. -/
inductive HostEvent where
  /-- `MemRead(off, size)`. -/
  | read (size : AccessSize) (off : Nat)
  /-- `MemWrite(off, size, v)`. -/
  | write (size : AccessSize) (off : Nat) (v : Word)
  /-- The reset input is asserted and released: one event, no state during it (R170). -/
  | reset
  deriving DecidableEq, Repr

/-- Why a step stops. Only a host access that R52 does not admit stops a step; no command does. -/
inductive Fault where
  /-- An 8-bit or 16-bit access, or one at an offset that is not a multiple of 4: "unspecified behaviour ... A model gives
  such an access no step" (R53, U2). Raised by `serveAccess`. Safe: the hardware does something, the model stops. -/
  | unspecifiedAccess
  /-- An aligned word access at an offset above 0x7C, outside the 128-byte window (R50, R52, R182). Raised by
  `serveAccess`. Safe. -/
  | outsideWindow
  deriving DecidableEq, Repr

/-- Instructions without a meaning. Every instruction of CVX has one, so no step answers a refusal. -/
inductive Refusal where
  /-- Raised only by an arm of `exec` whose instruction has no meaning yet (there is none). Safe. -/
  | notModelled (mnemonic : String)
  deriving DecidableEq, Repr

/-- The whole state of CVX (10_state.md R20 to R35), the host's side of the port, and the draw counter. -/
structure State where
  /-- CMD: the last command word written (R21). -/
  cmd : Word
  /-- STATUS bit 0, VALID (R22, R23). -/
  valid : Bool
  /-- STATUS bit 1, ERR (R22, R25). -/
  err : Bool
  /-- STATUS bits 7:4, ERRCODE (R22, R25). -/
  errcode : BitVec 4
  /-- CRC_CFG bits 7:0, POLY (R26). -/
  poly : Byte
  /-- CRC_CFG bits 15:8, INIT (R26). -/
  init : Byte
  /-- CRC_VALUE bits 7:0, CRCV (R28). -/
  crcv : Byte
  /-- RESULT (R29). -/
  result : Word
  /-- FB0 to FB10 (R31); `none` is R34's mark "not written since reset". -/
  fb : Vector (Option Byte) 11
  /-- HOST SIDE (R60, R182): the bus events still to be served, in the order CVX receives them. -/
  pending : List HostEvent
  /-- HOST SIDE (R182): the values the host's reads returned, oldest first. -/
  reads : List Word
  /-- MODEL'S OWN (log entry 2): bus events served so far, the number under which the access being served draws its
  free values. -/
  served : Nat
  deriving DecidableEq, Repr

/-- R171, with nothing for the host to do yet. `served` is the model's own field (log entry 2). -/
def State.reset : State where
  cmd := 0x00000000#32
  valid := false
  err := false
  errcode := 0#4
  poly := 0x31#8
  init := 0xFF#8
  crcv := 0x00#8
  result := 0x00000000#32
  fb := Vector.replicate 11 none
  pending := []
  reads := []
  served := 0

/-- What `exec` and `step` answer. -/
abbrev Outcome := Host.Outcome State Fault Refusal

end Sys2Proof.Machine
end

