-- ==== Sys2Proof/Machine/Flags.lean ====
section
/-! DEFINITION. CVX's flags: STATUS (10_state.md R22) and how VALID, ERR and ERRCODE are computed. There are no others
(R30). -/

namespace Sys2Proof.Machine

/-- The code STATUS.ERRCODE records (60_exceptions.md R150). -/
def errorCode : CmdError → BitVec 4
  | .illegalOp => 1#4
  | .rsvdBits => 2#4
  | .crcLen => 3#4
  | .bfxRange => 4#4
  | .bcdByte => 5#4
  | .fieldSel => 6#4

/-- VALID after a CRC.CHECK that completes: 1 if the computed CRC equals the trailer (R103). -/
def validFlag (crc trailer : Byte) : Bool := crc == trailer

/-- STATUS as a host reads it (R22): bits 31:8 reserved, ERRCODE, bits 3:2 reserved, ERR, VALID; reserved bits are 0. -/
def State.statusWord (s : State) : Word :=
  0#24 ++ s.errcode ++ 0#2 ++ BitVec.ofBool s.err ++ BitVec.ofBool s.valid

end Sys2Proof.Machine
end

