-- ==== Sys2Proof/Machine/Operands.lean ====
section
/-! DEFINITION. Operand forms of the commands: the operand-range checks of 30_encoding.md R81. No operand names a register
(R77), so an operand is the number itself and checking its range is all there is. -/

namespace Sys2Proof.Machine

/-- R73: CRC.CALC covers at most the 11 bytes of FB. -/
def crcCalcOperandError (n : Nat) : Option CmdError := if n > 11 then some .crcLen else none

/-- R73: the trailer `FB[n]` of CRC.CHECK must exist. -/
def crcCheckOperandError (n : Nat) : Option CmdError := if n > 10 then some .crcLen else none

/-- R74: the field must end at or before frame bit 87. -/
def bfxOperandError (pos width : Nat) : Option CmdError := if pos + width > 88 then some .bfxRange else none

/-- R75: BYTE must name a byte of FB; every tens width is legal. -/
def bcdOperandError (byte : Nat) : Option CmdError := if byte > 10 then some .bcdByte else none

/-- The operand-range check of a decoded command (R81); a FIELD command's is made by `decodeF`. -/
def operandError : Instr → Option CmdError
  | .crcCalc n => crcCalcOperandError n
  | .crcCheck n => crcCheckOperandError n
  | .bfx pos width => bfxOperandError pos width
  | .bcd byte _ => bcdOperandError byte
  | .fieldDeviceId | .fieldTempRaw | .fieldTempTenths | .fieldHumidity | .fieldWindAvg | .fieldWindGust
  | .fieldRain | .fieldWindDir | .fieldBatteryOk | .fieldHours | .fieldMinutes | .fieldSeconds | .fieldYear
  | .fieldMonth | .fieldDay | .fieldSignalDcf77 | .fieldUvSensorId | .fieldUvStatusOk | .fieldUvIndex
  | .fieldLightRaw | .fieldMsgType => none

/-- The error R81 gives a command word, if any: the first check that fails. -/
def commandError (w : Word) : Option CmdError :=
  match decode w with
  | .error e => some e
  | .ok i => operandError i

end Sys2Proof.Machine
end

