-- ==== Sys2Proof/Machine/Ops.lean ====
section
/-! DEFINITION. The named operations over CVX's registers: one home for every read and write of a register, the command
error (CVX's only exception) and command completion, and the reset event. -/

namespace Sys2Proof.Machine

/-! ### The frame buffer -/

/-- The value of `FB[i]` to the access being served: the byte written, or, for a byte not written since reset, a free
value (R34, U1; log entry 1). Each access has its own number and reads a byte at most once. -/
def State.fbByte (s : State) (i : Nat) : Byte :=
  match s.fb[i]? with
  | some (some b) => b
  | _ => Config.unwrittenFb s.served i

/-- `FB[0]` to `FB[n-1]`, in that order. -/
def State.fbBytes (s : State) (n : Nat) : List Byte := (List.range n).map s.fbByte

/-- Has `FB[i]` been written since reset (R34)? -/
def State.fbWritten (s : State) (i : Nat) : Bool :=
  match s.fb[i]? with
  | some (some _) => true
  | _ => false

/-! ### Register writes -/

/-- A host write to FBi stores bits 7:0 and clears VALID (R24, R57). -/
def State.writeFb (s : State) (i : Nat) (v : Word) : State :=
  { s with fb := s.fb.setIfInBounds i (some (v.setWidth 8)), valid := false }

/-- A host write to CRC_CFG stores POLY and INIT and clears VALID (R24, R26, R57). -/
def State.writeCrcCfg (s : State) (v : Word) : State :=
  { s with poly := v.extractLsb' 0 8, init := v.extractLsb' 8 8, valid := false }

/-- CMD stores every word written (R21). -/
def State.writeCmd (s : State) (w : Word) : State := { s with cmd := w }

/-- A CRC command writes CRC_VALUE (R28). -/
def State.writeCrcValue (s : State) (c : Byte) : State := { s with crcv := c }

/-- CRC.CHECK writes VALID (R23, R103). -/
def State.writeValid (s : State) (b : Bool) : State := { s with valid := b }

/-- BFX, BCD and FIELD write RESULT (R29). -/
def State.writeResult (s : State) (v : Word) : State := { s with result := v }

/-! ### How a command ends -/

/-- The state a refused command leaves: exactly the three writes of R152. -/
def State.withError (s : State) (e : CmdError) : State :=
  { s with err := true, errcode := errorCode e, valid := false }

/-- The state a completed command leaves in ERR and ERRCODE (R25). -/
def State.withoutError (s : State) : State := { s with err := false, errcode := 0#4 }

/-- TAKING THE EXCEPTION: `raise CmdError(e)` ends the command at once (R151, R152). CVX has no trap: nothing is saved and
no control is transferred (R156). -/
def raiseCmdError (e : CmdError) (s : State) : Outcome := .next (s.withError e)

/-- THE RETURN FROM IT: there is no trap return; the next command that completes clears ERR and ERRCODE (R25, R157). -/
def completeCommand (s : State) : Outcome := .next s.withoutError

/-- R81, R151: a command whose operand check fails raises before any of its own writes; any other ends as `done`. -/
def checkOperands (check : Option CmdError) (s done : State) : Outcome :=
  match check with
  | some e => raiseCmdError e s
  | none => completeCommand done

/-! ### The port -/

/-- The host's next event is taken from the queue and numbered (R60; log entries 2 and 3). -/
def State.accept (s : State) (rest : List HostEvent) : State := { s with pending := rest, served := s.served + 1 }

/-- A read returns `v` to the host and has no other effect (R57). -/
def State.returnRead (s : State) (v : Word) : State := { s with reads := s.reads ++ [v] }

/-- The reset event gives every register of CVX its value of R171; what belongs to the host, and the draw counter, go on
(log entry 8). -/
def State.afterReset (s : State) : State :=
  { State.reset with pending := s.pending, reads := s.reads, served := s.served }

end Sys2Proof.Machine
end

