-- ==== Sys2Proof/Machine/Crc.lean ====
section
/-! DEFINITION. The CRC-8 validator commands (40_crc8.md). -/

namespace Sys2Proof.Machine

/-- One step of R100's inner loop: bit 7 is tested, the register shifts left, POLY is XORed in if the bit was 1. -/
def crcShift (poly c : Byte) : Byte :=
  if c.getLsbD 7 then (c <<< 1) ^^^ poly else c <<< 1

/-- `k` steps of R100's inner loop. -/
def crcShifts (poly : Byte) : Nat → Byte → Byte
  | 0, c => c
  | k + 1, c => crcShifts poly k (crcShift poly c)

/-- One round of R100's outer loop: the byte is XORed in, then 8 shifts. -/
def crcByte (poly c b : Byte) : Byte := crcShifts poly 8 (c ^^^ b)

/-- R100 over a sequence of bytes: preloaded with `init`, no final XOR, no reflection (log entry 9). -/
def crc8 (poly init : Byte) (bytes : List Byte) : Byte := bytes.foldl (crcByte poly) init

/-- `crc8(N, CRC_CFG.POLY, CRC_CFG.INIT)` of R100, over `FB[0..N-1]`. -/
def State.crcOf (s : State) (n : Nat) : Byte := crc8 s.poly s.init (s.fbBytes n)

/-- CRC.CALC (R102). -/
def execCrcCalc (n : Nat) (s : State) : Outcome :=
  checkOperands (crcCalcOperandError n) s (s.writeCrcValue (s.crcOf n))

/-- CRC.CHECK (R103). -/
def execCrcCheck (n : Nat) (s : State) : Outcome :=
  checkOperands (crcCheckOperandError n) s
    ((s.writeCrcValue (s.crcOf n)).writeValid (validFlag (s.crcOf n) (s.fbByte n)))

end Sys2Proof.Machine
end

