-- ==== Sys2Proof/Machine/Extract.lean ====
section
/-! DEFINITION. The bit-field extractor and BCD decoder primitives (41_bitfield_bcd.md). -/

namespace Sys2Proof.Machine

/-- FRAME as the 88-bit big-endian integer F of R111, `FB[0]` most significant: the sum over i of
`FB[i] * 2^(8*(10-i))`, by Horner's rule. -/
def State.frame (s : State) : Nat := (s.fbBytes 11).foldl (fun f b => f * 256 + b.toNat) 0

/-- `bfx(p, w)` of R111. -/
def State.bfx (s : State) (p w : Nat) : Nat := (s.frame >>> (88 - p - w)) &&& (2 ^ w - 1)

/-- `bcd(b, T)` of R114; no digit is checked (R115). -/
def State.bcd (s : State) (b t : Nat) : Nat :=
  (((s.fbByte b).toNat >>> 4) &&& (2 ^ t - 1)) * 10 + ((s.fbByte b).toNat &&& 0x0F)

/-- BFX (R110). -/
def execBfx (pos width : Nat) (s : State) : Outcome :=
  checkOperands (bfxOperandError pos width) s (s.writeResult (BitVec.ofNat 32 (s.bfx pos width)))

/-- BCD (R113). -/
def execBcd (byte tens : Nat) (s : State) : Outcome :=
  checkOperands (bcdOperandError byte) s (s.writeResult (BitVec.ofNat 32 (s.bcd byte tens)))

end Sys2Proof.Machine
end

