-- ==== Sys2Proof/Machine/Fields.lean ====
section
/-! DEFINITION. The named field decoder commands (42_fields.md): each evaluates its field and writes RESULT (R120). -/

namespace Sys2Proof.Machine

/-- `RESULT <- zext_32(v)`: an unsigned field (R29). -/
def natResult (v : Nat) : Word := BitVec.ofNat 32 v

/-- `RESULT <- (test)`: 1 when the test holds, 0 when not. -/
def boolResult (b : Bool) : Word := if b then 1#32 else 0#32

/-- R141: 0xA Weather is 1, 0xB DateTime is 2, 0x7 UvLight is 3, anything else Unknown is 0. -/
def messageCode : Nat → Nat
  | 0xA => 1
  | 0xB => 2
  | 0x7 => 3
  | _ => 0

/-- R120: what every FIELD command does with its field's value; it has no operand left to check. -/
def finishField (v : Word) (s : State) : Outcome := completeCommand (s.writeResult v)

/-- FIELD.DeviceId (R121): `bfx(12, 8)`, 8 bits wide (90_conflicts.md C1). -/
def execFieldDeviceId (s : State) : Outcome := finishField (natResult (s.bfx 12 8)) s

/-- FIELD.TempRaw (R122): `bfx(20, 12)`. -/
def execFieldTempRaw (s : State) : Outcome := finishField (natResult (s.bfx 20 12)) s

/-- FIELD.TempTenths (R123): `bfx(20, 12) - 400` as a 32-bit two's-complement value, the one signed RESULT. -/
def execFieldTempTenths (s : State) : Outcome := finishField (BitVec.ofInt 32 ((s.bfx 20 12 : Int) - 400)) s

/-- FIELD.Humidity (R124): `bfx(32, 8)`. -/
def execFieldHumidity (s : State) : Outcome := finishField (natResult (s.bfx 32 8)) s

/-- FIELD.WindAvg (R125): `bfx(40, 8)`, the raw byte. -/
def execFieldWindAvg (s : State) : Outcome := finishField (natResult (s.bfx 40 8)) s

/-- FIELD.WindGust (R126): `bfx(48, 8)`, the raw byte. -/
def execFieldWindGust (s : State) : Outcome := finishField (natResult (s.bfx 48 8)) s

/-- FIELD.Rain (R127): `bfx(60, 12)`, the tick count. -/
def execFieldRain (s : State) : Outcome := finishField (natResult (s.bfx 60 12)) s

/-- FIELD.WindDir (R128): `bfx(76, 4)`, the index. -/
def execFieldWindDir (s : State) : Outcome := finishField (natResult (s.bfx 76 4)) s

/-- FIELD.BatteryOk (R129): `bfx(72, 4) != 1` (log entry 10). -/
def execFieldBatteryOk (s : State) : Outcome := finishField (boolResult (s.bfx 72 4 != 1)) s

/-- FIELD.Hours (R130): `bcd(3, 2)`. -/
def execFieldHours (s : State) : Outcome := finishField (natResult (s.bcd 3 2)) s

/-- FIELD.Minutes (R131): `bcd(4, 4)`. -/
def execFieldMinutes (s : State) : Outcome := finishField (natResult (s.bcd 4 4)) s

/-- FIELD.Seconds (R132): `bcd(5, 4)`. -/
def execFieldSeconds (s : State) : Outcome := finishField (natResult (s.bcd 5 4)) s

/-- FIELD.Year (R133): `bcd(6, 4) + 2000`. -/
def execFieldYear (s : State) : Outcome := finishField (natResult (2000 + s.bcd 6 4)) s

/-- FIELD.Month (R134): `bcd(7, 1)`. -/
def execFieldMonth (s : State) : Outcome := finishField (natResult (s.bcd 7 1)) s

/-- FIELD.Day (R135): `bcd(8, 4)`. -/
def execFieldDay (s : State) : Outcome := finishField (natResult (s.bcd 8 4)) s

/-- FIELD.SignalDcf77 (R136): `bfx(20, 4) == 10` (log entry 10). -/
def execFieldSignalDcf77 (s : State) : Outcome := finishField (boolResult (s.bfx 20 4 == 10)) s

/-- FIELD.UvSensorId (R137): `bfx(12, 8)`. -/
def execFieldUvSensorId (s : State) : Outcome := finishField (natResult (s.bfx 12 8)) s

/-- FIELD.UvStatusOk (R138): `bfx(24, 8) == 85`. -/
def execFieldUvStatusOk (s : State) : Outcome := finishField (boolResult (s.bfx 24 8 == 85)) s

/-- FIELD.UvIndex (R139): `bfx(20, 4)`. -/
def execFieldUvIndex (s : State) : Outcome := finishField (natResult (s.bfx 20 4)) s

/-- FIELD.LightRaw (R140): `bfx(32, 24)`. -/
def execFieldLightRaw (s : State) : Outcome := finishField (natResult (s.bfx 32 24)) s

/-- FIELD.MsgType (R141): the code of the tag nibble `bfx(8, 4)`. -/
def execFieldMsgType (s : State) : Outcome := finishField (natResult (messageCode (s.bfx 8 4))) s

end Sys2Proof.Machine
end

