-- ==== Sys2Proof/Machine/Dispatch.lean ====
section
/-! DEFINITION. The dispatch of a decoded command to its meaning: one arm per row of spec/opcode_table.json. -/

namespace Sys2Proof.Machine

def exec (i : Instr) (s : State) : Host.Outcome State Fault Refusal :=
  match i with
  | .crcCalc n => Sys2Proof.Machine.execCrcCalc n s
  | .crcCheck n => Sys2Proof.Machine.execCrcCheck n s
  | .bfx pos width => Sys2Proof.Machine.execBfx pos width s
  | .bcd byte tens => Sys2Proof.Machine.execBcd byte tens s
  | .fieldDeviceId => Sys2Proof.Machine.execFieldDeviceId s
  | .fieldTempRaw => Sys2Proof.Machine.execFieldTempRaw s
  | .fieldTempTenths => Sys2Proof.Machine.execFieldTempTenths s
  | .fieldHumidity => Sys2Proof.Machine.execFieldHumidity s
  | .fieldWindAvg => Sys2Proof.Machine.execFieldWindAvg s
  | .fieldWindGust => Sys2Proof.Machine.execFieldWindGust s
  | .fieldRain => Sys2Proof.Machine.execFieldRain s
  | .fieldWindDir => Sys2Proof.Machine.execFieldWindDir s
  | .fieldBatteryOk => Sys2Proof.Machine.execFieldBatteryOk s
  | .fieldHours => Sys2Proof.Machine.execFieldHours s
  | .fieldMinutes => Sys2Proof.Machine.execFieldMinutes s
  | .fieldSeconds => Sys2Proof.Machine.execFieldSeconds s
  | .fieldYear => Sys2Proof.Machine.execFieldYear s
  | .fieldMonth => Sys2Proof.Machine.execFieldMonth s
  | .fieldDay => Sys2Proof.Machine.execFieldDay s
  | .fieldSignalDcf77 => Sys2Proof.Machine.execFieldSignalDcf77 s
  | .fieldUvSensorId => Sys2Proof.Machine.execFieldUvSensorId s
  | .fieldUvStatusOk => Sys2Proof.Machine.execFieldUvStatusOk s
  | .fieldUvIndex => Sys2Proof.Machine.execFieldUvIndex s
  | .fieldLightRaw => Sys2Proof.Machine.execFieldLightRaw s
  | .fieldMsgType => Sys2Proof.Machine.execFieldMsgType s

end Sys2Proof.Machine
end

