-- ==== Sys2Proof/Machine/Window.lean ====
section
/-! DEFINITION. The register window (20_memory.md): which register an offset names, what a read of it returns, what a
write to it does, and how one bus event is served. A write to CMD decodes and executes a command. -/

namespace Sys2Proof.Machine

/-- A register of the window (R51). -/
inductive WindowReg where
  | cmd
  | status
  | crcCfg
  | crcValue
  | result
  | fb (i : Nat)
  | reserved
  deriving DecidableEq, Repr

/-- R51's register map, for the word-aligned offsets of the window. -/
def regAt (off : Nat) : WindowReg :=
  if off = 0x00 then .cmd
  else if off = 0x04 then .status
  else if off = 0x08 then .crcCfg
  else if off = 0x0C then .crcValue
  else if off = 0x10 then .result
  else if 0x40 ≤ off ∧ off ≤ 0x68 then .fb ((off - 0x40) / 4)
  else .reserved

/-- `MemRead(off, 4)` (R52): the value of a register; reserved bits and reserved offsets read as 0 (R54, R56). -/
def State.readReg (s : State) : WindowReg → Word
  | .cmd => s.cmd
  | .status => s.statusWord
  | .crcCfg => 0#16 ++ s.init ++ s.poly
  | .crcValue => s.crcv.setWidth 32
  | .result => s.result
  | .fb i => (s.fbByte i).setWidth 32
  | .reserved => 0x00000000#32

/-- R70, R81: execute a command word. A word that does not decode is refused with the error decoding names; a decoded
command makes its own operand check. -/
def executeWord (w : Word) (s : State) : Outcome :=
  match decode w with
  | .ok i => exec i s
  | .error e => raiseCmdError e s

/-- `MemWrite(off, 4, v)` (R57): CMD stores the word and executes it; FBi and CRC_CFG are stored; every other write is
ignored (R54, R55). -/
def writeReg (r : WindowReg) (v : Word) (s : State) : Outcome :=
  match r with
  | .cmd => executeWord v (s.writeCmd v)
  | .crcCfg => .next (s.writeCrcCfg v)
  | .fb i => .next (s.writeFb i v)
  | .status | .crcValue | .result | .reserved => .next s

/-- Why an access is not one of the accesses R52 admits, if it is not. -/
def accessFault (size : AccessSize) (off : Nat) : Option Fault :=
  if size ≠ .word ∨ off % 4 ≠ 0 then some .unspecifiedAccess
  else if 0x7C < off then some .outsideWindow
  else none

/-- Serve one event to completion (R60, R176). -/
def serveEvent (e : HostEvent) (s : State) : Outcome :=
  match e with
  | .read size off =>
    match accessFault size off with
    | some f => .fault f
    | none => .next (s.returnRead (s.readReg (regAt off)))
  | .write size off v =>
    match accessFault size off with
    | some f => .fault f
    | none => writeReg (regAt off) v s
  | .reset => .next s.afterReset

/-- Take the oldest event and serve it; with none pending CVX holds its state (R165; log entry 3). -/
def serveNext (s : State) : Outcome :=
  match s.pending with
  | [] => .next s
  | e :: rest => serveEvent e (s.accept rest)

/-- R65: the access that `sel` = 1 presents on the port, `addr` being `addr[6:2]`. The port has no byte enables, so only the
accesses of R52 can be put on it. -/
def portAccess (wr : Bool) (addr : BitVec 5) (wdata : Word) : HostEvent :=
  if wr then .write .word (4 * addr.toNat) wdata else .read .word (4 * addr.toNat)

/-- The window offset of a host address, `base` being CVX_BASE (R50): the 128 bytes from `base` on are the window, and an
access elsewhere does not reach CVX (log entry 6). -/
def windowOffset (base addr : Nat) : Option Nat :=
  if base ≤ addr ∧ addr < base + 128 then some (addr - base) else none

/-- What a host read at a host address puts on CVX's port. -/
def hostRead (size : AccessSize) (addr : Nat) : List HostEvent :=
  match windowOffset Config.cvxBase addr with
  | some off => [.read size off]
  | none => []

/-- What a host write at a host address puts on CVX's port. -/
def hostWrite (size : AccessSize) (addr : Nat) (v : Word) : List HostEvent :=
  match windowOffset Config.cvxBase addr with
  | some off => [.write size off v]
  | none => []

end Sys2Proof.Machine
end

