-- ==== Sys2Proof/Machine/Step.lean ====
section
/-! DEFINITION. One step of CVX: it serves the host's next bus event (20_memory.md R60, 70_reset_and_hazards.md R182). -/

namespace Sys2Proof.Machine

/-- One step: the oldest pending bus event, to completion. -/
def step (s : State) : Host.Outcome State Fault Refusal := serveNext s

/-- The state in which the host's next event is the write of command word `w` to CMD, so that the next step runs it
(log entry 3). -/
def State.withFetchWord (s : State) (nbits w : Nat) : State :=
  { s with pending := .write .word 0x00 (BitVec.ofNat 32 (w % 2 ^ nbits)) :: s.pending }

end Sys2Proof.Machine
end

