-- ==== Sys2Proof/Machine/Pseudo.lean ====
section
/-! DEFINITION. The assembler's view (30_encoding.md R82, R83): the bus write a command line stands for, and the
pseudo-instructions. -/

namespace Sys2Proof.Machine

/-- R82: a command line stands for `WR CMD, <word>`. Which commands an assembler writes is `assemble`'s to say; of any other term
this is the write of `encode`'s word (DESIGN CHOICE, log entry 13). -/
def commandLine (i : Instr) : HostEvent := .write .word 0x00 (encode i)

/-- R82: `FIELD fsel`, for an FSEL that fits its field; `assembleField` refuses any other (log entry 13). -/
def fieldLine (fsel : Nat) : HostEvent := .write .word 0x00 (encodeF fsel)

/-- `WR FBi, b` (R82, R51), for i = 0 to 10. Above 10 there is no register FBi, and this is the write of the next word offset
(DESIGN CHOICE, log entry 13). -/
def writeFbLine (i : Nat) (b : Byte) : HostEvent := .write .word (0x40 + 4 * i) (b.setWidth 32)

/-- `WR FBi, b0`, `WR FB(i+1), b1`, ... -/
def writeFbLines : Nat → List Byte → List HostEvent
  | _, [] => []
  | i, b :: bs => writeFbLine i b :: writeFbLines (i + 1) bs

/-- The pseudo-instructions of R83. -/
inductive Pseudo where
  | crcCheckL
  | crcCheckS
  | byte (b : Nat)
  | nibH (b : Nat)
  | nibL (b : Nat)
  | preamble
  | load (bytes : List Byte)
  deriving DecidableEq, Repr

/-- R83's expansions, as the bus events they stand for. R83 gives BYTE for b = 0 to 10 and leaves open what BYTE, NIBH and NIBL of
a larger b and a LOAD of more than 11 bytes are. DESIGN CHOICE (log entry 13): the same expansion formula is used, with no
refusal. -/
def expandPseudo : Pseudo → List HostEvent
  | .crcCheckL => [commandLine (.crcCheck 10)]
  | .crcCheckS => [commandLine (.crcCheck 7)]
  | .byte b => [commandLine (.bfx (8 * b) 8)]
  | .nibH b => [commandLine (.bfx (8 * b) 4)]
  | .nibL b => [commandLine (.bfx (8 * b + 4) 4)]
  | .preamble => [commandLine (.bfx 0 8)]
  | .load bytes => writeFbLines 0 bytes

/-- `RD <register>` (R82). -/
def readLine (off : Nat) : HostEvent := .read .word off

/-- R174: the accesses of the per-frame sequence up to the message type, for a frame of 11 or 8 bytes. What the host does with
the values it reads, and which FIELD commands follow, is the host's; CVX does not enforce the sequence. -/
def classifySequence (bytes : List Byte) : List HostEvent :=
  expandPseudo (.load bytes) ++ expandPseudo .preamble ++
    [readLine 0x10, commandLine (.crcCheck (bytes.length - 1)), readLine 0x04, commandLine .fieldMsgType, readLine 0x10]

end Sys2Proof.Machine
end

