-- ==== Sys2Proof/Safety.lean ====
section
/-! DEFINITION. What counts as a safe run of CVX, in the terms claims use: the host accesses that R52 admits, the FB bytes a
host must have written (R173), what a command reads, and the invariants of the state. -/

namespace Sys2Proof.Machine

/-- An event CVX serves: a reset, or an aligned 32-bit access to the window (R52). -/
def HostEvent.admitted : HostEvent → Bool
  | .read size off => size == .word && off % 4 == 0 && off ≤ 0x7C
  | .write size off _ => size == .word && off % 4 == 0 && off ≤ 0x7C
  | .reset => true

/-- Every event the host still has to issue is admitted. -/
abbrev State.hostAdmitted (s : State) : Prop := ∀ e ∈ s.pending, e.admitted = true

/-- The run is over: the host's last access has completed (R182). -/
def State.finished (s : State) : Bool := s.pending.isEmpty

/-- `FB[0]` to `FB[n-1]` have been written since reset (R34, R173). -/
abbrev State.fbWrittenBelow (s : State) (n : Nat) : Prop := ∀ i, i < n → s.fbWritten i = true

/-- The FB bytes a command reads when it completes, and no others: R101, R112, R116, and for FIELD the "Reads" line of each
field's rule (R121 to R141). -/
def readSet : Instr → List Nat
  | .crcCalc n => List.range n
  | .crcCheck n => List.range (n + 1)
  | .bfx pos width => List.range' (pos / 8) ((pos + width - 1) / 8 + 1 - pos / 8)
  | .bcd byte _ => [byte]
  | .fieldDeviceId => [1, 2]
  | .fieldTempRaw => [2, 3]
  | .fieldTempTenths => [2, 3]
  | .fieldHumidity => [4]
  | .fieldWindAvg => [5]
  | .fieldWindGust => [6]
  | .fieldRain => [7, 8]
  | .fieldWindDir => [9]
  | .fieldBatteryOk => [9]
  | .fieldHours => [3]
  | .fieldMinutes => [4]
  | .fieldSeconds => [5]
  | .fieldYear => [6]
  | .fieldMonth => [7]
  | .fieldDay => [8]
  | .fieldSignalDcf77 => [2]
  | .fieldUvSensorId => [1, 2]
  | .fieldUvStatusOk => [3]
  | .fieldUvIndex => [2]
  | .fieldLightRaw => [4, 5, 6]
  | .fieldMsgType => [1]

/-- A command finds every byte it reads written since reset (R173). A refused command reads none: its error is decided by the
word alone (R81). -/
abbrev State.readsWritten (s : State) (w : Word) : Prop :=
  ∀ i, decode w = .ok i → operandError i = none → ∀ k ∈ readSet i, s.fbWritten k = true

/-- STATUS is consistent (R22, R150, R152): ERRCODE is 0 exactly when ERR is 0, it is never 7 to 15, and VALID is 0 while
ERR is 1. -/
abbrev State.statusConsistent (s : State) : Prop :=
  (s.err = false ↔ s.errcode = 0#4) ∧ s.errcode.toNat ≤ 6 ∧ (s.err = true → s.valid = false)

/-- The error code a command word is given by R81's checks: 0 for a word that executes. -/
def commandErrorCode (w : Word) : BitVec 4 :=
  match commandError w with
  | none => 0#4
  | some e => errorCode e

/-- ERR and ERRCODE describe the word in CMD (R25), or no command was written since reset (R172). -/
abbrev State.statusDescribesCmd (s : State) : Prop :=
  s.errcode = commandErrorCode s.cmd ∨ (s.cmd = 0#32 ∧ s.errcode = 0#4)

end Sys2Proof.Machine
end

