-- ==== Sys2Proof/Certificates/Slice0/Obligations.lean ====
section
/-! DEFINITION. The statements for the provers. `Sys2Proof.Spec` restates the spec's own tables and formulas in plain
arithmetic, apart from the model's definitions, so that a statement compares the model with the spec's words. -/

namespace Sys2Proof.Spec

/-- R81's procedure and R150's codes: the error code of a command word, 0 if it executes. -/
def errorCodeOf (w : Word) : Nat :=
  let x := w.toNat
  let op := x % 16
  if op = 0 ∨ 5 < op then 1
  else if (op = 1 ∨ op = 2) ∧ x / 2 ^ 8 ≠ 0 then 2
  else if op = 3 ∧ x / 2 ^ 16 ≠ 0 then 2
  else if op = 4 ∧ x / 2 ^ 10 ≠ 0 then 2
  else if op = 5 ∧ x / 2 ^ 9 ≠ 0 then 2
  else if op = 1 ∧ 11 < x / 16 % 16 then 3
  else if op = 2 ∧ 10 < x / 16 % 16 then 3
  else if op = 3 ∧ 88 < x / 16 % 128 + x / 2 ^ 11 % 32 + 1 then 4
  else if op = 4 ∧ 10 < x / 16 % 16 then 5
  else if op = 5 ∧ 20 < x / 16 % 32 then 6
  else 0

/-- R100's inner step, on numbers below 256. -/
def crcBit (poly c : Nat) : Nat := if 128 ≤ c then (2 * c % 256) ^^^ poly else 2 * c

/-- R100's algorithm over `bytes`, in order: XOR the byte in, repeat the inner step 8 times. -/
def crcLoop (poly init : Nat) (bytes : List Nat) : Nat :=
  bytes.foldl (fun c b => (crcBit poly)^[8] (c ^^^ b)) init

/-- R100 over `FB[0..n-1]` with the POLY and INIT of the state. -/
def crcOfFb (s : Machine.State) (n : Nat) : Nat :=
  crcLoop s.poly.toNat s.init.toNat ((List.range n).map fun i => (s.fbByte i).toNat)

/-- Remainder of a GF(2) polynomial of degree below `k + 8`, given by its bits, modulo one of degree 8: schoolbook
division from the top (R27). -/
def polyRem (g : Nat) : (k : Nat) → (v : Nat) → Nat
  | 0, v => v
  | k + 1, v => polyRem g k (if v.testBit (k + 8) then v ^^^ (g <<< k) else v)

/-- R10: frame bit `q`, which is bit `7 - (q mod 8)` of `FB[q div 8]`. -/
def frameBit (s : Machine.State) (q : Nat) : Bool := (s.fbByte (q / 8)).getLsbD (7 - q % 8)

/-- The number whose binary digits are `d 0`, `d 1`, ..., `d (w-1)`, most significant first. -/
def bigEndian (d : Nat → Bool) : (w : Nat) → Nat
  | 0 => 0
  | w + 1 => 2 * bigEndian d w + (d w).toNat

/-- R22: STATUS as a number. -/
def statusValue (s : Machine.State) : Nat := s.valid.toNat + 2 * s.err.toNat + 16 * s.errcode.toNat

/-- R120: what a BFX, BCD or FIELD command that completes leaves, everything else unchanged. -/
def withResult (s : Machine.State) (v : Word) : Machine.State := { s with result := v, err := false, errcode := 0#4 }

/-- R152: what a command refused with `code` leaves, everything else unchanged. -/
def withErrorCode (s : Machine.State) (code : Nat) : Machine.State :=
  { s with valid := false, err := true, errcode := BitVec.ofNat 4 code }

/-- The state a bus event is served in: it is off the queue and counted. -/
def serving (s : Machine.State) (rest : List Machine.HostEvent) : Machine.State :=
  { s with pending := rest, served := s.served + 1 }

/-- The template of 42_fields.md: command `i` has word `w` and always completes with the value of `formula` on the FB bytes
in RESULT (32-bit two's complement), which lies in `lo .. hi`. -/
def FieldCommand (i : Instr) (w : Word) (formula : (Nat → Nat) → Int) (lo hi : Int) : Prop :=
  decode w = .ok i ∧ encode i = w ∧
    ∀ s : Machine.State,
      Machine.exec i s = .next (withResult s (BitVec.ofInt 32 (formula fun k => (s.fbByte k).toNat))) ∧
      lo ≤ formula (fun k => (s.fbByte k).toNat) ∧ formula (fun k => (s.fbByte k).toNat) ≤ hi

/-- R22, R24, for covered length `n`: if VALID is 1, the CRC over FB and CRC_CFG as they are now equals the trailer `FB[n]`,
where the host has written `FB[0..n]`. -/
def ValidDescribes (n : Nat) (s : Machine.State) : Prop :=
  s.valid = true → s.fbWrittenBelow (n + 1) → crcOfFb s n = (s.fbByte n).toNat

end Sys2Proof.Spec

open Sys2Proof Sys2Proof.Machine

/-! ### Encoding -/

/-- R73 to R76, R80, R82: decoding the word of a well-formed command gives the command back, every operand at every
value its field admits. -/
def Obligations.DecodeOfEncodeIsIdentity : Prop := ∀ i : Instr, i.wellFormed = true → decode (encode i) = .ok i

/-- R70 to R76: a word that decodes is the word of the command it decodes to, and that command is well formed, so each
command has one word. -/
def Obligations.EncodeOfDecodeIsIdentity : Prop :=
  ∀ (w : Word) (i : Instr), decode w = .ok i → i.wellFormed = true ∧ encode i = w

/-- 30_encoding.md section 7: words of the spec and the commands they stand for, one or more of each format. -/
def Obligations.SpecWordsDecodeToTheirCommands : Prop :=
  decode 0x000000A2#32 = .ok (.crcCheck 10) ∧ decode 0x00000072#32 = .ok (.crcCheck 7) ∧
  decode 0x000000A1#32 = .ok (.crcCalc 10) ∧ decode 0x00000071#32 = .ok (.crcCalc 7) ∧
  decode 0x00003803#32 = .ok (.bfx 0 8) ∧ decode 0x00001883#32 = .ok (.bfx 8 4) ∧
  decode 0x00000134#32 = .ok (.bcd 3 2) ∧ decode 0x00000005#32 = .ok .fieldDeviceId ∧
  decode 0x00000145#32 = .ok .fieldMsgType

/-- R83: every pseudo-instruction stands for the CMD or FB writes of its expansion. MODEL'S CHOICE in it (log entry 13): a LOAD of
more than 11 bytes, which R83 leaves open, goes on to the word offsets after FB10. -/
def Obligations.PseudoInstructionsExpand : Prop :=
  expandPseudo .crcCheckL = [.write .word 0x00 0xA2#32] ∧ expandPseudo .crcCheckS = [.write .word 0x00 0x72#32] ∧
  expandPseudo .preamble = [.write .word 0x00 0x3803#32] ∧
  (∀ b, b ≤ 10 → expandPseudo (.byte b) = [.write .word 0x00 (encode (.bfx (8 * b) 8))] ∧
    expandPseudo (.nibH b) = [.write .word 0x00 (encode (.bfx (8 * b) 4))] ∧
    expandPseudo (.nibL b) = [.write .word 0x00 (encode (.bfx (8 * b + 4) 4))]) ∧
  (∀ bytes : List Byte, (expandPseudo (.load bytes)).length = bytes.length ∧
    ∀ k b, bytes[k]? = some b →
      (expandPseudo (.load bytes))[k]? = some (HostEvent.write .word (0x40 + 4 * k) (b.setWidth 32)))

/-! ### A step -/

/-- R21, R70: when the host's next access writes a word that decodes to `i` to CMD, the step is `exec i` in the state in
which the access is off the queue and counted and CMD holds the word. -/
def Obligations.StepRunsDecodedCommand : Prop :=
  ∀ (s : State) (w : Word) (i : Instr) (rest : List HostEvent),
    s.pending = .write .word 0x00 w :: rest → decode w = .ok i →
      step s = exec i { Spec.serving s rest with cmd := w }

/-- R81, with R150 to R153: a CMD write is checked in R81's order, and the first check that fails decides the error. A word
whose code is 0 decodes, and the command completes with ERR = 0 and ERRCODE = 0. A refused word writes exactly ERR,
ERRCODE, VALID (and CMD). -/
def Obligations.CommandWordIsCheckedAsR81 : Prop :=
  ∀ (s : State) (w : Word) (rest : List HostEvent), s.pending = .write .word 0x00 w :: rest →
    (Spec.errorCodeOf w ≠ 0 →
      step s = .next (Spec.withErrorCode { Spec.serving s rest with cmd := w } (Spec.errorCodeOf w))) ∧
    (Spec.errorCodeOf w = 0 → ∃ i t, decode w = .ok i ∧ exec i { Spec.serving s rest with cmd := w } = .next t ∧
      step s = .next t ∧ t.err = false ∧ t.errcode = 0#4)

/-- MODEL'S CHOICE (log entry 3; R165, R182): with no host access pending, CVX holds its state. -/
def Obligations.IdlePortHoldsState : Prop := ∀ s : State, s.pending = [] → step s = .next s

/-- R158, R52, R53, R182: a step stops exactly when the host's next access is not one R52 admits; no command stops, and nothing is
refused as not modelled. MODEL'S CHOICES in it: that a step with nothing pending answers a next state (log entry 3), and that a
word access above 0x7C is a stop of its own (log entry 5, DEDUCED). -/
def Obligations.OnlyUnadmittedAccessesStop : Prop :=
  ∀ s : State, (∃ t, step s = .next t) ↔ (∀ e rest, s.pending = e :: rest → e.admitted = true)

/-- R53 (an 8-bit or 16-bit access, or a misaligned one, has no step) and R182 (nor has any other access R52 does not
admit): the two named stops. -/
def Obligations.UnadmittedAccessHasNoStep : Prop :=
  ∀ (s : State) (size : AccessSize) (off : Nat) (v : Word) (rest : List HostEvent),
    (s.pending = .read size off :: rest ∨ s.pending = .write size off v :: rest) →
      ((size ≠ .word ∨ off % 4 ≠ 0) → step s = .fault .unspecifiedAccess) ∧
      (size = .word → off % 4 = 0 → 0x7C < off → step s = .fault .outsideWindow)

/-- R182: a host program of admitted events is served in as many steps as it has events, it then is over, and every read
added one value to the values read before. MODEL'S CHOICE in it: across a reset event the pending events and the values read stay
(log entry 8). -/
def Obligations.HostProgramRunsToItsEnd : Prop :=
  ∀ s : State, s.hostAdmitted → ∃ t, Sys2Proof.core.run s.pending.length s = .next t ∧ t.pending = [] ∧
    s.reads <+: t.reads ∧
    t.reads.length = s.reads.length +
      (s.pending.filter fun e => match e with | .read _ _ => true | _ => false).length

/-! ### The window -/

/-- R51, R57 (reads), R22, R26, R28, R29: a word read returns the register at its offset and changes nothing in CVX. -/
def Obligations.HostReadReturnsRegisterOnly : Prop :=
  ∀ (s : State) (off : Nat) (rest : List HostEvent), s.pending = .read .word off :: rest →
    (off = 0x00 → step s = .next { Spec.serving s rest with reads := s.reads ++ [s.cmd] }) ∧
    (off = 0x04 → step s = .next { Spec.serving s rest with
      reads := s.reads ++ [BitVec.ofNat 32 (Spec.statusValue s)] }) ∧
    (off = 0x08 → step s = .next { Spec.serving s rest with
      reads := s.reads ++ [BitVec.ofNat 32 (256 * s.init.toNat + s.poly.toNat)] }) ∧
    (off = 0x0C → step s = .next { Spec.serving s rest with
      reads := s.reads ++ [BitVec.ofNat 32 s.crcv.toNat] }) ∧
    (off = 0x10 → step s = .next { Spec.serving s rest with reads := s.reads ++ [s.result] }) ∧
    (∀ (i : Nat) (b : Byte), off = 0x40 + 4 * i → s.fb[i]? = some (some b) →
      step s = .next { Spec.serving s rest with reads := s.reads ++ [BitVec.ofNat 32 b.toNat] })

/-- U1, R34, log entry 1 (MODEL'S CHOICE among U1's two treatments): a host read of an FB byte not written since reset
completes, returns that access's free value, zero-extended, and changes nothing in CVX. -/
def Obligations.UnwrittenFbReadReturnsFreeByte : Prop :=
  ∀ (s : State) (i : Nat) (rest : List HostEvent), i ≤ 10 → s.pending = .read .word (0x40 + 4 * i) :: rest →
    s.fbWritten i = false →
      step s = .next { Spec.serving s rest with
        reads := s.reads ++ [(Config.unwrittenFb (s.served + 1) i).setWidth 32] }

/-- R54: an aligned word read of a reserved offset returns 0 and a write to one changes no state. -/
def Obligations.ReservedOffsetsReadZeroIgnoreWrites : Prop :=
  ∀ (s : State) (off : Nat) (rest : List HostEvent), off % 4 = 0 →
    (0x14 ≤ off ∧ off ≤ 0x3C ∨ 0x6C ≤ off ∧ off ≤ 0x7C) →
      (s.pending = .read .word off :: rest →
        step s = .next { Spec.serving s rest with reads := s.reads ++ [0x00000000#32] }) ∧
      (∀ v, s.pending = .write .word off v :: rest → step s = .next (Spec.serving s rest))

/-- R55: a write to STATUS, CRC_VALUE or RESULT changes no state. -/
def Obligations.ReadOnlyRegistersIgnoreWrites : Prop :=
  ∀ (s : State) (off : Nat) (v : Word) (rest : List HostEvent), (off = 0x04 ∨ off = 0x0C ∨ off = 0x10) →
    s.pending = .write .word off v :: rest → step s = .next (Spec.serving s rest)

/-- R24, R57: a write to FBi stores bits 7:0 there, a write to CRC_CFG stores POLY and INIT, both clear VALID whatever the
value written, and nothing else changes. -/
def Obligations.FbAndCrcCfgWritesClearValid : Prop :=
  ∀ (s : State) (v : Word) (rest : List HostEvent),
    (∀ i : Fin 11, s.pending = .write .word (0x40 + 4 * i) v :: rest →
      step s = .next { Spec.serving s rest with
        fb := s.fb.set i (some (BitVec.ofNat 8 (v.toNat % 256))), valid := false }) ∧
    (s.pending = .write .word 0x08 v :: rest →
      step s = .next { Spec.serving s rest with
        poly := BitVec.ofNat 8 (v.toNat % 256), init := BitVec.ofNat 8 (v.toNat / 256 % 256), valid := false })

/-- R56: what a host reads back after writing `v`: CRC_CFG and FBi without their reserved bits, CMD whole (its word is checked
when it executes, R71 and R81); and the reserved bits of STATUS and CRC_VALUE read as 0 whatever was written. -/
def Obligations.ReservedBitsReadZero : Prop :=
  ∀ (s : State) (v : Word) (off : Nat) (rest : List HostEvent),
    s.pending = .write .word off v :: .read .word off :: rest →
    off % 4 = 0 → off ≤ 0x7C → ∃ t u x, step s = .next t ∧ step t = .next u ∧ u.reads = s.reads ++ [x] ∧
      (off = 0x00 → x = v ∧ t.errcode.toNat = Spec.errorCodeOf v) ∧
      (off = 0x04 → x &&& 0xFFFFFF0C#32 = 0#32) ∧
      (off = 0x08 → x = v &&& 0x0000FFFF#32) ∧
      (off = 0x0C → x &&& 0xFFFFFF00#32 = 0#32) ∧
      (0x40 ≤ off → off ≤ 0x68 → x = v &&& 0x000000FF#32)

/-- R50: for every CVX_BASE, exactly the 128 host addresses from it on are the window, at offsets 0x00 to 0x7F. -/
def Obligations.WindowIs128BytesAtBase : Prop :=
  ∀ base addr off : Nat, windowOffset base addr = some off ↔ addr = base + off ∧ off ≤ 0x7F

/-! ### Reset -/

/-- R171: the reset state, and the state the reset event leaves from any state: every register at its value of R171, reserved
bits reading as 0, and no FB byte written since reset (its value is unspecified). -/
def Obligations.ResetLeavesR171 : Prop :=
  ∀ r : State,
    (r = State.reset ∨ ∃ (s : State) (rest : List HostEvent), s.pending = .reset :: rest ∧ step s = .next r) →
      r.cmd = 0x00000000#32 ∧ r.valid = false ∧ r.err = false ∧ r.errcode = 0#4 ∧ r.poly = 0x31#8 ∧ r.init = 0xFF#8 ∧
      r.crcv = 0x00#8 ∧ r.result = 0x00000000#32 ∧
      r.readReg (regAt 0x04) = 0x00000000#32 ∧ r.readReg (regAt 0x08) = 0x0000FF31#32 ∧
      r.readReg (regAt 0x0C) = 0x00000000#32 ∧
      (∀ i, r.fbWritten i = false)

/-- R170, log entry 8 (MODEL'S CHOICE for the host's side): the reset event completes; the events pending and the values read
so far stay. -/
def Obligations.ResetEventCompletes : Prop :=
  ∀ (s : State) (rest : List HostEvent), s.pending = .reset :: rest →
    ∃ t, step s = .next t ∧ t.pending = rest ∧ t.reads = s.reads

/-! ### The CRC commands -/

/-- R102 (and R100): CRC.CALC N, its encoding, its result and registers written for N = 0 to 11, CRC_LEN for N = 12 to 15,
RSVD_BITS, and the corner N = 0. R100's preload form is what the spec marks as general knowledge (log entry 9). -/
def Obligations.CrcCalcResult : Prop :=
  ∀ (n : Nat) (s : State), n ≤ 15 → decode (BitVec.ofNat 32 (n * 16 + 1)) = .ok (.crcCalc n) ∧
    (n ≤ 11 → exec (.crcCalc n) s =
      .next { s with crcv := BitVec.ofNat 8 (Spec.crcOfFb s n), err := false, errcode := 0#4 }) ∧
    (12 ≤ n → exec (.crcCalc n) s = .next (Spec.withErrorCode s 3)) ∧
    (∀ w : Word, w.toNat % 16 = 1 → w.toNat / 2 ^ 8 ≠ 0 → decode w = .error .rsvdBits) ∧
    Spec.crcOfFb s 0 = s.init.toNat

/-- R103 (and R100): CRC.CHECK N, its encoding, its result, VALID and registers written for N = 0 to 10, CRC_LEN for
N = 11 to 15, RSVD_BITS, and the corner N = 0. As for CRC.CALC, log entry 9. -/
def Obligations.CrcCheckResult : Prop :=
  ∀ (n : Nat) (s : State), n ≤ 15 → decode (BitVec.ofNat 32 (n * 16 + 2)) = .ok (.crcCheck n) ∧
    (n ≤ 10 → exec (.crcCheck n) s =
      .next { s with crcv := BitVec.ofNat 8 (Spec.crcOfFb s n),
                     valid := decide (Spec.crcOfFb s n = (s.fbByte n).toNat), err := false, errcode := 0#4 }) ∧
    (11 ≤ n → exec (.crcCheck n) s = .next (Spec.withErrorCode s 3)) ∧
    (∀ w : Word, w.toNat % 16 = 2 → w.toNat / 2 ^ 8 ≠ 0 → decode w = .error .rsvdBits) ∧
    Spec.crcOfFb s 0 = s.init.toNat

/-- R104 and R101: for the same FB bytes below N, POLY, INIT and N, CRC.CALC (N up to 11) and CRC.CHECK (N up to 10) compute
the same CRC, and for the same trailer CRC.CHECK gives the same VALID, whatever else the two states hold. -/
def Obligations.CrcDependsOnCoveredBytesOnly : Prop :=
  ∀ (n : Nat) (s s' : State), n ≤ 11 → s.poly = s'.poly → s.init = s'.init →
    (∀ i, i < n → s.fbByte i = s'.fbByte i) →
      ∃ t t', exec (.crcCalc n) s = .next t ∧ exec (.crcCalc n) s' = .next t' ∧ t.crcv = t'.crcv ∧
        (n ≤ 10 → ∃ u u', exec (.crcCheck n) s = .next u ∧ exec (.crcCheck n) s' = .next u' ∧
          u.crcv = t.crcv ∧ u'.crcv = t.crcv ∧ (s.fbByte n = s'.fbByte n → u.valid = u'.valid))

/-- R105: flipping bit `k` of `FB[i]` of a frame that passes CRC.CHECK N changes the CRC by x^(8(N-1-i)+k+8) mod G(x) for a
covered byte and not at all for the trailer; with POLY other than 0 the flipped frame always fails; with POLY = 0 the CRC is 0
for N at least 1, and no flip in `FB[0..N-1]` is detected. The spec marks all of this "derived: from rule R100". -/
def Obligations.SingleBitFlipIsDetected : Prop :=
  ∀ (n i k : Nat) (s t : State), n ≤ 10 → i ≤ n → k < 8 → exec (.crcCheck n) s = .next t → t.valid = true →
    ∃ t', exec (.crcCheck n)
        { s with fb := s.fb.setIfInBounds i (some (s.fbByte i ^^^ BitVec.ofNat 8 (2 ^ k))) } = .next t' ∧
      (i < n → t'.crcv.toNat =
        t.crcv.toNat ^^^ Spec.polyRem (256 + s.poly.toNat) (8 * n) (2 ^ (8 * (n - 1 - i) + k + 8))) ∧
      (i = n → t'.crcv = t.crcv) ∧
      (s.poly ≠ 0x00#8 → t'.valid = false) ∧ (s.poly = 0x00#8 → 1 ≤ n → t'.crcv = 0x00#8) ∧
      (s.poly = 0x00#8 → i < n → t'.valid = true)

/-- R27: with G(x) = x^8 + p(x), CRC.CALC N computes the remainder modulo G of the message polynomial, INIT added at its top,
times x^8. The spec marks the polynomial reading "derived: from rule R100". -/
def Obligations.CrcIsPolynomialRemainder : Prop :=
  ∀ (n : Nat) (s : State), n ≤ 11 → ∃ t, exec (.crcCalc n) s = .next t ∧
    t.crcv.toNat = Spec.polyRem (256 + s.poly.toNat) (8 * n)
      (((s.fbBytes n).foldl (fun m b => m * 256 + b.toNat) 0 <<< 8) ^^^ (s.init.toNat <<< (8 * n)))

/-- 40_crc8.md R100 (V17): a covered range followed by its own CRC leaves 0, for every POLY and INIT. -/
def Obligations.CrcOverOwnTrailerIsZero : Prop :=
  ∀ (n : Nat) (s t u : State), n ≤ 10 → exec (.crcCalc n) s = .next t → s.fbByte n = t.crcv →
    exec (.crcCalc (n + 1)) s = .next u → u.crcv = 0x00#8

/-- R102, R103: the CRC that CRC.CALC leaves is the trailer CRC.CHECK accepts: after `CRC.CALC N`, writing that value to FBN
makes `CRC.CHECK N` give VALID = 1. -/
def Obligations.CalculatedTrailerPassesCheck : Prop :=
  ∀ (n : Nat) (c : Byte) (s : State) (rest : List HostEvent), n ≤ 10 → s.fbWrittenBelow n →
    c = BitVec.ofNat 8 (Spec.crcOfFb s n) →
    s.pending = commandLine (.crcCalc n) :: writeFbLine n c :: commandLine (.crcCheck n) :: rest →
      ∃ t u r, step s = .next t ∧ t.crcv = c ∧ step t = .next u ∧ step u = .next r ∧
        r.valid = true ∧ r.err = false ∧ r.crcv = c ∧ r.pending = rest

/-! ### BFX and BCD -/

/-- R110, R111, R10: BFX POS, W completes when POS + W is at most 88, with the W frame bits from POS on, the first most
significant, zero-extended in RESULT; otherwise it is refused with BFX_RANGE. RSVD_BITS for any bit above 15. -/
def Obligations.BfxResult : Prop :=
  ∀ (p w : Nat) (s : State), p ≤ 127 → 1 ≤ w → w ≤ 32 →
    decode (BitVec.ofNat 32 ((w - 1) * 2 ^ 11 + p * 16 + 3)) = .ok (.bfx p w) ∧
    (p + w ≤ 88 → exec (.bfx p w) s =
      .next (Spec.withResult s (BitVec.ofNat 32 (Spec.bigEndian (fun j => Spec.frameBit s (p + j)) w)))) ∧
    (88 < p + w → exec (.bfx p w) s = .next (Spec.withErrorCode s 4)) ∧
    (∀ v : Word, v.toNat % 16 = 3 → v.toNat / 2 ^ 16 ≠ 0 → decode v = .error .rsvdBits)

/-- R112: BFX reads FB bytes `POS div 8` to `(POS + W - 1) div 8` and no others, and of those bytes only the field's bits. The
spec marks this "derived: from rule R111". -/
def Obligations.BfxReadsOnlyItsBytes : Prop :=
  ∀ (p w : Nat) (s s' : State), 1 ≤ w → w ≤ 32 → p + w ≤ 88 →
    ((∀ i, p / 8 ≤ i → i ≤ (p + w - 1) / 8 → s.fbByte i = s'.fbByte i) ∨
      (∀ q, p ≤ q → q < p + w → Spec.frameBit s q = Spec.frameBit s' q)) →
      ∃ t t', exec (.bfx p w) s = .next t ∧ exec (.bfx p w) s' = .next t' ∧ t.result = t'.result

/-- R113 to R116: BCD BYTE, T completes for BYTE at most 10 with tens * 10 + ones, whatever the digits, at most 165; BYTE 11
to 15 is refused with BCD_BYTE. RSVD_BITS for any bit above 9. -/
def Obligations.BcdResult : Prop :=
  ∀ (b t : Nat) (s : State), b ≤ 15 → 1 ≤ t → t ≤ 4 →
    decode (BitVec.ofNat 32 ((t - 1) * 256 + b * 16 + 4)) = .ok (.bcd b t) ∧
    (b ≤ 10 → exec (.bcd b t) s = .next (Spec.withResult s
        (BitVec.ofNat 32 ((s.fbByte b).toNat / 16 % 2 ^ t * 10 + (s.fbByte b).toNat % 16))) ∧
      (s.fbByte b).toNat / 16 % 2 ^ t * 10 + (s.fbByte b).toNat % 16 ≤ 165) ∧
    (11 ≤ b → exec (.bcd b t) s = .next (Spec.withErrorCode s 5)) ∧
    (∀ w : Word, w.toNat % 16 = 4 → w.toNat / 2 ^ 10 ≠ 0 → decode w = .error .rsvdBits)

/-! ### The FIELD commands, by RS's formulas -/

/-- R121 to R129: the Weather fields. -/
def Obligations.WeatherFieldsFollowRS : Prop :=
  Spec.FieldCommand .fieldDeviceId 0x00000005#32 (fun B => ((B 1 <<< 4 &&& 0xF0) ||| (B 2 >>> 4) : Nat)) 0 255 ∧
  Spec.FieldCommand .fieldTempRaw 0x00000015#32 (fun B => (((B 2 <<< 8) + B 3) &&& 0x0FFF : Nat)) 0 4095 ∧
  Spec.FieldCommand .fieldTempTenths 0x00000025#32 (fun B => (((B 2 <<< 8) + B 3) &&& 0x0FFF : Nat) - 0x190)
    (-400) 3695 ∧
  Spec.FieldCommand .fieldHumidity 0x00000035#32 (fun B => B 4) 0 255 ∧
  Spec.FieldCommand .fieldWindAvg 0x00000045#32 (fun B => B 5) 0 255 ∧
  Spec.FieldCommand .fieldWindGust 0x00000055#32 (fun B => B 6) 0 255 ∧
  Spec.FieldCommand .fieldRain 0x00000065#32 (fun B => (((B 7 &&& 0x0F) <<< 8) ||| B 8 : Nat)) 0 4095 ∧
  Spec.FieldCommand .fieldWindDir 0x00000075#32 (fun B => (B 9 &&& 0x0F : Nat)) 0 15 ∧
  Spec.FieldCommand .fieldBatteryOk 0x00000085#32 (fun B => if B 9 >>> 4 ≠ 1 then 1 else 0) 0 1

/-- R130 to R136: the DateTime fields. -/
def Obligations.DateTimeFieldsFollowRS : Prop :=
  Spec.FieldCommand .fieldHours 0x00000095#32 (fun B => ((B 3 >>> 4 &&& 0x03) * 10 + (B 3 &&& 0x0F) : Nat)) 0 45 ∧
  Spec.FieldCommand .fieldMinutes 0x000000A5#32 (fun B => (((B 4 &&& 0xF0) >>> 4) * 10 + (B 4 &&& 0x0F) : Nat)) 0 165 ∧
  Spec.FieldCommand .fieldSeconds 0x000000B5#32 (fun B => (((B 5 &&& 0xF0) >>> 4) * 10 + (B 5 &&& 0x0F) : Nat)) 0 165 ∧
  Spec.FieldCommand .fieldYear 0x000000C5#32
    (fun B => (((B 6 &&& 0xF0) >>> 4) * 10 + (B 6 &&& 0x0F) : Nat) + 2000) 2000 2165 ∧
  Spec.FieldCommand .fieldMonth 0x000000D5#32 (fun B => ((B 7 >>> 4 &&& 0x01) * 10 + (B 7 &&& 0x0F) : Nat)) 0 25 ∧
  Spec.FieldCommand .fieldDay 0x000000E5#32 (fun B => (((B 8 &&& 0xF0) >>> 4) * 10 + (B 8 &&& 0x0F) : Nat)) 0 165 ∧
  Spec.FieldCommand .fieldSignalDcf77 0x000000F5#32 (fun B => if B 2 &&& 0x0F = 10 then 1 else 0) 0 1

/-- R137 to R140: the UvLight fields. -/
def Obligations.UvLightFieldsFollowRS : Prop :=
  Spec.FieldCommand .fieldUvSensorId 0x00000105#32 (fun B => ((B 1 <<< 4 &&& 0xF0) ||| (B 2 >>> 4) : Nat)) 0 255 ∧
  Spec.FieldCommand .fieldUvStatusOk 0x00000115#32 (fun B => if B 3 = 85 then 1 else 0) 0 1 ∧
  Spec.FieldCommand .fieldUvIndex 0x00000125#32 (fun B => (B 2 &&& 0x0F : Nat)) 0 15 ∧
  Spec.FieldCommand .fieldLightRaw 0x00000135#32 (fun B => ((B 4 <<< 16) ||| (B 5 <<< 8) ||| B 6 : Nat)) 0 16777215

/-- R141: the message-type tag, from the high nibble of FB[1] alone. -/
def Obligations.MessageTypeFollowsRS : Prop :=
  Spec.FieldCommand .fieldMsgType 0x00000145#32
    (fun B => if B 1 / 16 = 0xA then 1 else if B 1 / 16 = 0xB then 2 else if B 1 / 16 = 0x7 then 3 else 0) 0 3

/-- R32: on an 8-byte frame `FB[8..10]` do not matter: CRC.CHECK 7 and the UvLight fields and the message type give the same
in two states with the same `FB[0..7]`, POLY and INIT. -/
def Obligations.EightByteFrameIgnoresUpperBytes : Prop :=
  ∀ (i : Instr) (s s' : State), s.poly = s'.poly → s.init = s'.init → (∀ k, k ≤ 7 → s.fbByte k = s'.fbByte k) →
    i ∈ [Instr.crcCheck 7, .fieldUvSensorId, .fieldUvStatusOk, .fieldUvIndex, .fieldLightRaw, .fieldMsgType] →
      ∃ t t', exec i s = .next t ∧ exec i s' = .next t' ∧
        (i = .crcCheck 7 → t.crcv = t'.crcv ∧ t.valid = t'.valid) ∧ (i ≠ .crcCheck 7 → t.result = t'.result)

/-! ### Frames and whole-machine rules -/

/-- R31, R21, R26, for every command: it completes (with ERR = 0 when its operands are in range, with ERR = 1 and VALID = 0
when not) and leaves CMD, CRC_CFG, every byte of FB and the host's queue and read values as they were. -/
def Obligations.CommandsChangeNoInput : Prop :=
  ∀ (i : Instr) (s : State), ∃ t, exec i s = .next t ∧
    t.cmd = s.cmd ∧ t.poly = s.poly ∧ t.init = s.init ∧ t.fb = s.fb ∧ (∀ k, t.fbByte k = s.fbByte k) ∧
    t.pending = s.pending ∧ t.reads = s.reads ∧ t.served = s.served ∧
    (operandError i = none → t.err = false ∧ t.errcode = 0#4) ∧
    (operandError i ≠ none → t.err = true ∧ t.valid = false ∧ t.crcv = s.crcv ∧ t.result = s.result)

/-- R102, R103, R110, R113, R120 (registers written): a CRC command leaves RESULT; CRC.CALC, BFX, BCD and FIELD that complete
leave VALID; BFX, BCD and FIELD leave CRC_VALUE. -/
def Obligations.CommandsLeaveOtherResults : Prop :=
  ∀ (i : Instr) (s t : State), exec i s = .next t →
    ((∃ n, i = .crcCalc n ∨ i = .crcCheck n) → t.result = s.result) ∧
    ((∀ n, i ≠ .crcCalc n ∧ i ≠ .crcCheck n) → t.crcv = s.crcv) ∧
    (t.err = false → (∀ n, i ≠ .crcCheck n) → t.valid = s.valid)

/-- R157: a command executes the same whatever ERR and ERRCODE were. -/
def Obligations.EarlierErrorDoesNotMatter : Prop :=
  ∀ (i : Instr) (s : State) (e : Bool) (c : BitVec 4), exec i { s with err := e, errcode := c } = exec i s

/-- R23: VALID after a step, from the event served: a CMD write that is refused clears it, a CRC.CHECK that completes writes
the comparison, FB and CRC_CFG writes and reset clear it, and nothing else changes it. -/
def Obligations.ValidHasNoOtherWriters : Prop :=
  ∀ (s t : State) (e : HostEvent) (rest : List HostEvent), s.pending = e :: rest → step s = .next t →
    t.valid = match e with
      | .reset => false
      | .read _ _ => s.valid
      | .write _ off v =>
        if off = 0x00 then
          if Spec.errorCodeOf v ≠ 0 then false
          else if v.toNat % 16 = 2 then
            decide (Spec.crcOfFb (Spec.serving s rest) (v.toNat / 16 % 16) =
              ((Spec.serving s rest).fbByte (v.toNat / 16 % 16)).toNat)
          else s.valid
        else if off = 0x08 ∨ 0x40 ≤ off ∧ off ≤ 0x68 then false
        else s.valid

/-- R25: ERR and ERRCODE after a step, from the event served: every CMD write writes them, reset clears them, and nothing else
changes them. -/
def Obligations.ErrHasNoOtherWriters : Prop :=
  ∀ (s t : State) (e : HostEvent) (rest : List HostEvent), s.pending = e :: rest → step s = .next t →
    (t.err, t.errcode) = match e with
      | .reset => (false, 0#4)
      | .read _ _ => (s.err, s.errcode)
      | .write _ off v =>
        if off = 0x00 then (decide (Spec.errorCodeOf v ≠ 0), BitVec.ofNat 4 (Spec.errorCodeOf v))
        else (s.err, s.errcode)

/-- R28: CRC_VALUE changes only by reset and by a CRC.CALC or CRC.CHECK that completes, which leave the CRC they computed; it
reads at offset 0x0C, bits 31:8 as 0. -/
def Obligations.CrcValueHasNoOtherWriters : Prop :=
  ∀ (s t : State) (e : HostEvent) (rest : List HostEvent), s.pending = e :: rest → step s = .next t →
    t.readReg (regAt 0x0C) = BitVec.ofNat 32 t.crcv.toNat ∧
    t.crcv = match e with
      | .reset => 0x00#8
      | .read _ _ => s.crcv
      | .write _ off v =>
        if off = 0x00 ∧ Spec.errorCodeOf v = 0 ∧ (v.toNat % 16 = 1 ∨ v.toNat % 16 = 2) then
          BitVec.ofNat 8 (Spec.crcOfFb (Spec.serving s rest) (v.toNat / 16 % 16))
        else s.crcv

/-- R29 (who may change RESULT): if a step changes it, the event was reset or the CMD write of a BFX, BCD or FIELD command that
completes. -/
def Obligations.ResultHasNoOtherWriters : Prop :=
  ∀ (s t : State) (e : HostEvent) (rest : List HostEvent), s.pending = e :: rest → step s = .next t →
    t.result ≠ s.result →
      (e = .reset ∧ t.result = 0x00000000#32) ∨
      (∃ v, e = .write .word 0x00 v ∧ Spec.errorCodeOf v = 0 ∧ 3 ≤ v.toNat % 16 ∧ v.toNat % 16 ≤ 5)

/-- R31, R26: FB, POLY and INIT after a step: only a host write to the register itself, or reset, changes them. -/
def Obligations.InputsHaveNoOtherWriters : Prop :=
  ∀ (s t : State) (e : HostEvent) (rest : List HostEvent), s.pending = e :: rest → step s = .next t →
    (∀ i : Fin 11, t.fb[i] = match e with
      | .reset => none
      | .read _ _ => s.fb[i]
      | .write _ off v => if off = 0x40 + 4 * i.val then some (BitVec.ofNat 8 (v.toNat % 256)) else s.fb[i]) ∧
    ((t.poly, t.init) = match e with
      | .reset => (0x31#8, 0xFF#8)
      | .read _ _ => (s.poly, s.init)
      | .write _ off v =>
        if off = 0x08 then (BitVec.ofNat 8 (v.toNat % 256), BitVec.ofNat 8 (v.toNat / 256 % 256))
        else (s.poly, s.init))

/-- R57: executing the same command word twice on unchanged state gives the same state both times, refused words included. If
the word completes, the FB bytes it reads (R101, R112, R116, the field's rule) were written since reset: an unwritten byte's value
is drawn afresh in each access (U1, log entry 1). The bytes it does not read may hold anything. -/
def Obligations.SameCommandTwiceIsIdempotent : Prop :=
  ∀ (s t u : State) (w : Word) (rest : List HostEvent), s.readsWritten w →
    s.pending = .write .word 0x00 w :: .write .word 0x00 w :: rest → step s = .next t → step t = .next u →
      u = { t with pending := rest, served := t.served + 1 }

/-! ### Invariants -/

/-- R171, R172: the reset state meets the invariants below, the last one for every covered length. -/
def Obligations.ResetMeetsInvariants : Prop :=
  State.reset.statusConsistent ∧ State.reset.statusDescribesCmd ∧ State.reset.valid = false ∧
    ∀ n, Spec.ValidDescribes n State.reset

/-- R22, R150, R152: every step keeps STATUS consistent. -/
def Obligations.StepKeepsStatusConsistent : Prop :=
  ∀ s t : State, s.statusConsistent → step s = .next t → t.statusConsistent

/-- R25, R21, R172: in every step from a state in which ERR and ERRCODE describe the word in CMD (or none was written since
reset), they describe it in the next state. -/
def Obligations.StepKeepsStatusDescribingCmd : Prop :=
  ∀ s t : State, s.statusDescribesCmd → step s = .next t → t.statusDescribesCmd

/-- R22, R24: VALID never describes bytes or parameters other than those the CRC was computed from, for each covered length N on
its own. If VALID = 1 means that the CRC of `FB[0..N-1]`, over FB and CRC_CFG as they are, equals `FB[N]`, it still does after any
step but one that completes a CRC.CHECK of another length; and after a step that completes a CRC.CHECK N it does so whatever the
state was before. Bytes not written since reset are left out (U1, log entry 1). -/
def Obligations.StepKeepsValidTruthful : Prop :=
  ∀ (n : Nat) (s t : State), n ≤ 10 → step s = .next t →
    (Spec.ValidDescribes n s ∨
      ∃ w rest, s.pending = .write .word 0x00 w :: rest ∧ decode w = .ok (.crcCheck n)) →
    (∀ w rest m, s.pending = .write .word 0x00 w :: rest → decode w = .ok (.crcCheck m) → m ≤ 10 → m = n) →
      Spec.ValidDescribes n t
end

