-- ==== Sys2Proof/Laws/State.lean ====
section
/-! SUPPORT. The small lemmas of the register updates: one per field per update, true by rfl. -/

namespace Sys2Proof.Machine

/-! ### `State.writeFb` -/

@[simp] theorem writeFb_cmd (s : State) (i : Nat) (v : Word) : (s.writeFb i v).cmd = s.cmd := rfl
@[simp] theorem writeFb_valid (s : State) (i : Nat) (v : Word) : (s.writeFb i v).valid = false := rfl
@[simp] theorem writeFb_err (s : State) (i : Nat) (v : Word) : (s.writeFb i v).err = s.err := rfl
@[simp] theorem writeFb_errcode (s : State) (i : Nat) (v : Word) : (s.writeFb i v).errcode = s.errcode := rfl
@[simp] theorem writeFb_poly (s : State) (i : Nat) (v : Word) : (s.writeFb i v).poly = s.poly := rfl
@[simp] theorem writeFb_init (s : State) (i : Nat) (v : Word) : (s.writeFb i v).init = s.init := rfl
@[simp] theorem writeFb_crcv (s : State) (i : Nat) (v : Word) : (s.writeFb i v).crcv = s.crcv := rfl
@[simp] theorem writeFb_result (s : State) (i : Nat) (v : Word) : (s.writeFb i v).result = s.result := rfl
@[simp] theorem writeFb_fb (s : State) (i : Nat) (v : Word) : (s.writeFb i v).fb = s.fb.setIfInBounds i (some (v.setWidth 8)) := rfl
@[simp] theorem writeFb_pending (s : State) (i : Nat) (v : Word) : (s.writeFb i v).pending = s.pending := rfl
@[simp] theorem writeFb_reads (s : State) (i : Nat) (v : Word) : (s.writeFb i v).reads = s.reads := rfl
@[simp] theorem writeFb_served (s : State) (i : Nat) (v : Word) : (s.writeFb i v).served = s.served := rfl

/-! ### `State.writeCrcCfg` -/

@[simp] theorem writeCrcCfg_cmd (s : State) (v : Word) : (s.writeCrcCfg v).cmd = s.cmd := rfl
@[simp] theorem writeCrcCfg_valid (s : State) (v : Word) : (s.writeCrcCfg v).valid = false := rfl
@[simp] theorem writeCrcCfg_err (s : State) (v : Word) : (s.writeCrcCfg v).err = s.err := rfl
@[simp] theorem writeCrcCfg_errcode (s : State) (v : Word) : (s.writeCrcCfg v).errcode = s.errcode := rfl
@[simp] theorem writeCrcCfg_poly (s : State) (v : Word) : (s.writeCrcCfg v).poly = v.extractLsb' 0 8 := rfl
@[simp] theorem writeCrcCfg_init (s : State) (v : Word) : (s.writeCrcCfg v).init = v.extractLsb' 8 8 := rfl
@[simp] theorem writeCrcCfg_crcv (s : State) (v : Word) : (s.writeCrcCfg v).crcv = s.crcv := rfl
@[simp] theorem writeCrcCfg_result (s : State) (v : Word) : (s.writeCrcCfg v).result = s.result := rfl
@[simp] theorem writeCrcCfg_fb (s : State) (v : Word) : (s.writeCrcCfg v).fb = s.fb := rfl
@[simp] theorem writeCrcCfg_pending (s : State) (v : Word) : (s.writeCrcCfg v).pending = s.pending := rfl
@[simp] theorem writeCrcCfg_reads (s : State) (v : Word) : (s.writeCrcCfg v).reads = s.reads := rfl
@[simp] theorem writeCrcCfg_served (s : State) (v : Word) : (s.writeCrcCfg v).served = s.served := rfl

/-! ### `State.writeCmd` -/

@[simp] theorem writeCmd_cmd (s : State) (w : Word) : (s.writeCmd w).cmd = w := rfl
@[simp] theorem writeCmd_valid (s : State) (w : Word) : (s.writeCmd w).valid = s.valid := rfl
@[simp] theorem writeCmd_err (s : State) (w : Word) : (s.writeCmd w).err = s.err := rfl
@[simp] theorem writeCmd_errcode (s : State) (w : Word) : (s.writeCmd w).errcode = s.errcode := rfl
@[simp] theorem writeCmd_poly (s : State) (w : Word) : (s.writeCmd w).poly = s.poly := rfl
@[simp] theorem writeCmd_init (s : State) (w : Word) : (s.writeCmd w).init = s.init := rfl
@[simp] theorem writeCmd_crcv (s : State) (w : Word) : (s.writeCmd w).crcv = s.crcv := rfl
@[simp] theorem writeCmd_result (s : State) (w : Word) : (s.writeCmd w).result = s.result := rfl
@[simp] theorem writeCmd_fb (s : State) (w : Word) : (s.writeCmd w).fb = s.fb := rfl
@[simp] theorem writeCmd_pending (s : State) (w : Word) : (s.writeCmd w).pending = s.pending := rfl
@[simp] theorem writeCmd_reads (s : State) (w : Word) : (s.writeCmd w).reads = s.reads := rfl
@[simp] theorem writeCmd_served (s : State) (w : Word) : (s.writeCmd w).served = s.served := rfl

/-! ### `State.writeCrcValue` -/

@[simp] theorem writeCrcValue_cmd (s : State) (c : Byte) : (s.writeCrcValue c).cmd = s.cmd := rfl
@[simp] theorem writeCrcValue_valid (s : State) (c : Byte) : (s.writeCrcValue c).valid = s.valid := rfl
@[simp] theorem writeCrcValue_err (s : State) (c : Byte) : (s.writeCrcValue c).err = s.err := rfl
@[simp] theorem writeCrcValue_errcode (s : State) (c : Byte) : (s.writeCrcValue c).errcode = s.errcode := rfl
@[simp] theorem writeCrcValue_poly (s : State) (c : Byte) : (s.writeCrcValue c).poly = s.poly := rfl
@[simp] theorem writeCrcValue_init (s : State) (c : Byte) : (s.writeCrcValue c).init = s.init := rfl
@[simp] theorem writeCrcValue_crcv (s : State) (c : Byte) : (s.writeCrcValue c).crcv = c := rfl
@[simp] theorem writeCrcValue_result (s : State) (c : Byte) : (s.writeCrcValue c).result = s.result := rfl
@[simp] theorem writeCrcValue_fb (s : State) (c : Byte) : (s.writeCrcValue c).fb = s.fb := rfl
@[simp] theorem writeCrcValue_pending (s : State) (c : Byte) : (s.writeCrcValue c).pending = s.pending := rfl
@[simp] theorem writeCrcValue_reads (s : State) (c : Byte) : (s.writeCrcValue c).reads = s.reads := rfl
@[simp] theorem writeCrcValue_served (s : State) (c : Byte) : (s.writeCrcValue c).served = s.served := rfl

/-! ### `State.writeValid` -/

@[simp] theorem writeValid_cmd (s : State) (b : Bool) : (s.writeValid b).cmd = s.cmd := rfl
@[simp] theorem writeValid_valid (s : State) (b : Bool) : (s.writeValid b).valid = b := rfl
@[simp] theorem writeValid_err (s : State) (b : Bool) : (s.writeValid b).err = s.err := rfl
@[simp] theorem writeValid_errcode (s : State) (b : Bool) : (s.writeValid b).errcode = s.errcode := rfl
@[simp] theorem writeValid_poly (s : State) (b : Bool) : (s.writeValid b).poly = s.poly := rfl
@[simp] theorem writeValid_init (s : State) (b : Bool) : (s.writeValid b).init = s.init := rfl
@[simp] theorem writeValid_crcv (s : State) (b : Bool) : (s.writeValid b).crcv = s.crcv := rfl
@[simp] theorem writeValid_result (s : State) (b : Bool) : (s.writeValid b).result = s.result := rfl
@[simp] theorem writeValid_fb (s : State) (b : Bool) : (s.writeValid b).fb = s.fb := rfl
@[simp] theorem writeValid_pending (s : State) (b : Bool) : (s.writeValid b).pending = s.pending := rfl
@[simp] theorem writeValid_reads (s : State) (b : Bool) : (s.writeValid b).reads = s.reads := rfl
@[simp] theorem writeValid_served (s : State) (b : Bool) : (s.writeValid b).served = s.served := rfl

/-! ### `State.writeResult` -/

@[simp] theorem writeResult_cmd (s : State) (v : Word) : (s.writeResult v).cmd = s.cmd := rfl
@[simp] theorem writeResult_valid (s : State) (v : Word) : (s.writeResult v).valid = s.valid := rfl
@[simp] theorem writeResult_err (s : State) (v : Word) : (s.writeResult v).err = s.err := rfl
@[simp] theorem writeResult_errcode (s : State) (v : Word) : (s.writeResult v).errcode = s.errcode := rfl
@[simp] theorem writeResult_poly (s : State) (v : Word) : (s.writeResult v).poly = s.poly := rfl
@[simp] theorem writeResult_init (s : State) (v : Word) : (s.writeResult v).init = s.init := rfl
@[simp] theorem writeResult_crcv (s : State) (v : Word) : (s.writeResult v).crcv = s.crcv := rfl
@[simp] theorem writeResult_result (s : State) (v : Word) : (s.writeResult v).result = v := rfl
@[simp] theorem writeResult_fb (s : State) (v : Word) : (s.writeResult v).fb = s.fb := rfl
@[simp] theorem writeResult_pending (s : State) (v : Word) : (s.writeResult v).pending = s.pending := rfl
@[simp] theorem writeResult_reads (s : State) (v : Word) : (s.writeResult v).reads = s.reads := rfl
@[simp] theorem writeResult_served (s : State) (v : Word) : (s.writeResult v).served = s.served := rfl

/-! ### `State.withError` -/

@[simp] theorem withError_cmd (s : State) (e : CmdError) : (s.withError e).cmd = s.cmd := rfl
@[simp] theorem withError_valid (s : State) (e : CmdError) : (s.withError e).valid = false := rfl
@[simp] theorem withError_err (s : State) (e : CmdError) : (s.withError e).err = true := rfl
@[simp] theorem withError_errcode (s : State) (e : CmdError) : (s.withError e).errcode = errorCode e := rfl
@[simp] theorem withError_poly (s : State) (e : CmdError) : (s.withError e).poly = s.poly := rfl
@[simp] theorem withError_init (s : State) (e : CmdError) : (s.withError e).init = s.init := rfl
@[simp] theorem withError_crcv (s : State) (e : CmdError) : (s.withError e).crcv = s.crcv := rfl
@[simp] theorem withError_result (s : State) (e : CmdError) : (s.withError e).result = s.result := rfl
@[simp] theorem withError_fb (s : State) (e : CmdError) : (s.withError e).fb = s.fb := rfl
@[simp] theorem withError_pending (s : State) (e : CmdError) : (s.withError e).pending = s.pending := rfl
@[simp] theorem withError_reads (s : State) (e : CmdError) : (s.withError e).reads = s.reads := rfl
@[simp] theorem withError_served (s : State) (e : CmdError) : (s.withError e).served = s.served := rfl

/-! ### `State.withoutError` -/

@[simp] theorem withoutError_cmd (s : State) : s.withoutError.cmd = s.cmd := rfl
@[simp] theorem withoutError_valid (s : State) : s.withoutError.valid = s.valid := rfl
@[simp] theorem withoutError_err (s : State) : s.withoutError.err = false := rfl
@[simp] theorem withoutError_errcode (s : State) : s.withoutError.errcode = 0#4 := rfl
@[simp] theorem withoutError_poly (s : State) : s.withoutError.poly = s.poly := rfl
@[simp] theorem withoutError_init (s : State) : s.withoutError.init = s.init := rfl
@[simp] theorem withoutError_crcv (s : State) : s.withoutError.crcv = s.crcv := rfl
@[simp] theorem withoutError_result (s : State) : s.withoutError.result = s.result := rfl
@[simp] theorem withoutError_fb (s : State) : s.withoutError.fb = s.fb := rfl
@[simp] theorem withoutError_pending (s : State) : s.withoutError.pending = s.pending := rfl
@[simp] theorem withoutError_reads (s : State) : s.withoutError.reads = s.reads := rfl
@[simp] theorem withoutError_served (s : State) : s.withoutError.served = s.served := rfl

/-! ### `State.accept` -/

@[simp] theorem accept_cmd (s : State) (rest : List HostEvent) : (s.accept rest).cmd = s.cmd := rfl
@[simp] theorem accept_valid (s : State) (rest : List HostEvent) : (s.accept rest).valid = s.valid := rfl
@[simp] theorem accept_err (s : State) (rest : List HostEvent) : (s.accept rest).err = s.err := rfl
@[simp] theorem accept_errcode (s : State) (rest : List HostEvent) : (s.accept rest).errcode = s.errcode := rfl
@[simp] theorem accept_poly (s : State) (rest : List HostEvent) : (s.accept rest).poly = s.poly := rfl
@[simp] theorem accept_init (s : State) (rest : List HostEvent) : (s.accept rest).init = s.init := rfl
@[simp] theorem accept_crcv (s : State) (rest : List HostEvent) : (s.accept rest).crcv = s.crcv := rfl
@[simp] theorem accept_result (s : State) (rest : List HostEvent) : (s.accept rest).result = s.result := rfl
@[simp] theorem accept_fb (s : State) (rest : List HostEvent) : (s.accept rest).fb = s.fb := rfl
@[simp] theorem accept_pending (s : State) (rest : List HostEvent) : (s.accept rest).pending = rest := rfl
@[simp] theorem accept_reads (s : State) (rest : List HostEvent) : (s.accept rest).reads = s.reads := rfl
@[simp] theorem accept_served (s : State) (rest : List HostEvent) : (s.accept rest).served = s.served + 1 := rfl

/-! ### `State.returnRead` -/

@[simp] theorem returnRead_cmd (s : State) (v : Word) : (s.returnRead v).cmd = s.cmd := rfl
@[simp] theorem returnRead_valid (s : State) (v : Word) : (s.returnRead v).valid = s.valid := rfl
@[simp] theorem returnRead_err (s : State) (v : Word) : (s.returnRead v).err = s.err := rfl
@[simp] theorem returnRead_errcode (s : State) (v : Word) : (s.returnRead v).errcode = s.errcode := rfl
@[simp] theorem returnRead_poly (s : State) (v : Word) : (s.returnRead v).poly = s.poly := rfl
@[simp] theorem returnRead_init (s : State) (v : Word) : (s.returnRead v).init = s.init := rfl
@[simp] theorem returnRead_crcv (s : State) (v : Word) : (s.returnRead v).crcv = s.crcv := rfl
@[simp] theorem returnRead_result (s : State) (v : Word) : (s.returnRead v).result = s.result := rfl
@[simp] theorem returnRead_fb (s : State) (v : Word) : (s.returnRead v).fb = s.fb := rfl
@[simp] theorem returnRead_pending (s : State) (v : Word) : (s.returnRead v).pending = s.pending := rfl
@[simp] theorem returnRead_reads (s : State) (v : Word) : (s.returnRead v).reads = s.reads ++ [v] := rfl
@[simp] theorem returnRead_served (s : State) (v : Word) : (s.returnRead v).served = s.served := rfl

/-! ### `State.afterReset` -/

@[simp] theorem afterReset_cmd (s : State) : s.afterReset.cmd = State.reset.cmd := rfl
@[simp] theorem afterReset_valid (s : State) : s.afterReset.valid = State.reset.valid := rfl
@[simp] theorem afterReset_err (s : State) : s.afterReset.err = State.reset.err := rfl
@[simp] theorem afterReset_errcode (s : State) : s.afterReset.errcode = State.reset.errcode := rfl
@[simp] theorem afterReset_poly (s : State) : s.afterReset.poly = State.reset.poly := rfl
@[simp] theorem afterReset_init (s : State) : s.afterReset.init = State.reset.init := rfl
@[simp] theorem afterReset_crcv (s : State) : s.afterReset.crcv = State.reset.crcv := rfl
@[simp] theorem afterReset_result (s : State) : s.afterReset.result = State.reset.result := rfl
@[simp] theorem afterReset_fb (s : State) : s.afterReset.fb = State.reset.fb := rfl
@[simp] theorem afterReset_pending (s : State) : s.afterReset.pending = s.pending := rfl
@[simp] theorem afterReset_reads (s : State) : s.afterReset.reads = s.reads := rfl
@[simp] theorem afterReset_served (s : State) : s.afterReset.served = s.served := rfl

end Sys2Proof.Machine
end

