-- ==== Sys2Proof/Laws/Ops.lean ====
section
/-! SUPPORT. What the shared operations and the commands can do, said once: the frame buffer's reads and writes, how a
command ends, and the inversion of `exec`. -/

namespace Sys2Proof.Machine

/-! ### The frame buffer -/

/-- What an FB byte reads as depends on FB and on the access's number only. -/
theorem fbByte_congr {s t : State} (hfb : t.fb = s.fb) (hn : t.served = s.served) (i : Nat) :
    t.fbByte i = s.fbByte i := by
  simp only [State.fbByte, hfb, hn]

/-- A byte that has been written reads the same in every access. -/
theorem fbByte_of_written {s t : State} (hfb : t.fb = s.fb) {i : Nat} (h : s.fbWritten i = true) :
    t.fbByte i = s.fbByte i := by
  simp only [State.fbWritten, State.fbByte, hfb] at *
  rcases hb : s.fb[i]? with _ | _ | b
  · simp only [hb, Bool.false_eq_true] at h
  · simp only [hb, Bool.false_eq_true] at h
  · rfl

/-- Reading after a write to the same byte gives the byte written. -/
theorem fbByte_writeFb_same (s : State) (i : Nat) (v : Word) (h : i < 11) :
    (s.writeFb i v).fbByte i = v.setWidth 8 := by
  simp [State.fbByte, h]

/-- A write leaves every other byte alone. -/
theorem fbByte_writeFb_other (s : State) (i j : Nat) (v : Word) (h : i ≠ j) :
    (s.writeFb i v).fbByte j = s.fbByte j := by
  simp only [State.fbByte, writeFb_fb, writeFb_served]
  by_cases hj : j < 11
  · simp [hj, h]
  · simp [hj]

/-- A write marks its byte written and no other. -/
theorem fbWritten_writeFb (s : State) (i j : Nat) (v : Word) :
    (s.writeFb i v).fbWritten j = (decide (i = j ∧ j < 11) || s.fbWritten j) := by
  simp only [State.fbWritten, writeFb_fb]
  by_cases hj : j < 11
  · by_cases h : i = j
    · subst h; simp [hj]
    · simp [hj, h]
  · simp [hj]

/-- Right after reset no FB byte is marked written (R34, R171). -/
theorem fbWritten_reset (i : Nat) : State.reset.fbWritten i = false := by
  unfold State.fbWritten State.reset
  by_cases h : i < 11 <;> simp [h]

/-! ### How a command ends -/

/-- A command's operand check either raises before any write of the command or lets it complete (R151). -/
theorem checkOperands_cases (check : Option CmdError) (s done : State) :
    (∃ e, check = some e ∧ checkOperands check s done = .next (s.withError e)) ∨
    (check = none ∧ checkOperands check s done = .next done.withoutError) := by
  cases check with
  | none => exact .inr ⟨rfl, rfl⟩
  | some e => exact .inl ⟨e, rfl, rfl⟩

/-- Everything a command can do: raise its operand error, or complete with its CRC, its CRC and VALID, or a RESULT. -/
theorem exec_cases (i : Instr) (s : State) :
    (∃ e, operandError i = some e ∧ exec i s = .next (s.withError e)) ∨
    (∃ n, i = .crcCalc n ∧ n ≤ 11 ∧ exec i s = .next (s.writeCrcValue (s.crcOf n)).withoutError) ∨
    (∃ n, i = .crcCheck n ∧ n ≤ 10 ∧ exec i s = .next
      ((s.writeCrcValue (s.crcOf n)).writeValid (validFlag (s.crcOf n) (s.fbByte n))).withoutError) ∨
    ((∀ n, i ≠ .crcCalc n ∧ i ≠ .crcCheck n) ∧ operandError i = none ∧
      ∃ v, exec i s = .next (s.writeResult v).withoutError) := by
  cases i with
  | crcCalc n =>
    rcases checkOperands_cases (crcCalcOperandError n) s (s.writeCrcValue (s.crcOf n)) with ⟨e, he, h⟩ | ⟨he, h⟩
    · exact .inl ⟨e, he, h⟩
    · refine .inr (.inl ⟨n, rfl, ?_, h⟩)
      simpa [crcCalcOperandError] using he
  | crcCheck n =>
    rcases checkOperands_cases (crcCheckOperandError n) s
      ((s.writeCrcValue (s.crcOf n)).writeValid (validFlag (s.crcOf n) (s.fbByte n))) with ⟨e, he, h⟩ | ⟨he, h⟩
    · exact .inl ⟨e, he, h⟩
    · refine .inr (.inr (.inl ⟨n, rfl, ?_, h⟩))
      simpa [crcCheckOperandError] using he
  | bfx p w =>
    rcases checkOperands_cases (bfxOperandError p w) s (s.writeResult (BitVec.ofNat 32 (s.bfx p w)))
      with ⟨e, he, h⟩ | ⟨he, h⟩
    · exact .inl ⟨e, he, h⟩
    · exact .inr (.inr (.inr ⟨by simp, he, _, h⟩))
  | bcd b t =>
    rcases checkOperands_cases (bcdOperandError b) s (s.writeResult (BitVec.ofNat 32 (s.bcd b t)))
      with ⟨e, he, h⟩ | ⟨he, h⟩
    · exact .inl ⟨e, he, h⟩
    · exact .inr (.inr (.inr ⟨by simp, he, _, h⟩))
  | _ => exact .inr (.inr (.inr ⟨by simp, rfl, _, rfl⟩))

/-- A command that completes its step leaves CMD, CRC_CFG, FB and everything of the host's as they were. -/
theorem exec_keeps {i : Instr} {s t : State} (h : exec i s = .next t) :
    t.cmd = s.cmd ∧ t.poly = s.poly ∧ t.init = s.init ∧ t.fb = s.fb ∧ t.pending = s.pending ∧ t.reads = s.reads ∧
      t.served = s.served := by
  rcases exec_cases i s with ⟨e, -, h'⟩ | ⟨n, -, -, h'⟩ | ⟨n, -, -, h'⟩ | ⟨-, -, v, h'⟩ <;>
    (rw [h'] at h; cases h; simp)

/-- How a command leaves ERR and ERRCODE: the error its operands raise, or none. -/
theorem exec_status {i : Instr} {s t : State} (h : exec i s = .next t) :
    (∃ e, operandError i = some e ∧ t = s.withError e) ∨
    (operandError i = none ∧ t.err = false ∧ t.errcode = 0#4) := by
  rcases exec_cases i s with ⟨e, he, h'⟩ | ⟨n, rfl, hn, h'⟩ | ⟨n, rfl, hn, h'⟩ | ⟨-, he, v, h'⟩ <;>
    (rw [h'] at h; cases h)
  · exact .inl ⟨e, he, rfl⟩
  · exact .inr ⟨by simp [operandError, crcCalcOperandError]; omega, rfl, rfl⟩
  · exact .inr ⟨by simp [operandError, crcCheckOperandError]; omega, rfl, rfl⟩
  · exact .inr ⟨he, rfl, rfl⟩

/-- CRC.CALC completes for a covered length up to 11. -/
theorem exec_crcCalc {n : Nat} (s : State) (h : n ≤ 11) :
    exec (.crcCalc n) s = .next (s.writeCrcValue (s.crcOf n)).withoutError := by
  simp only [exec, execCrcCalc, crcCalcOperandError]
  rw [if_neg (by omega)]
  rfl

/-- CRC.CHECK completes for a covered length up to 10. -/
theorem exec_crcCheck {n : Nat} (s : State) (h : n ≤ 10) : exec (.crcCheck n) s = .next
    ((s.writeCrcValue (s.crcOf n)).writeValid (validFlag (s.crcOf n) (s.fbByte n))).withoutError := by
  simp only [exec, execCrcCheck, crcCheckOperandError]
  rw [if_neg (by omega)]
  rfl

/-- BFX completes for a field that ends inside FB. -/
theorem exec_bfx {p w : Nat} (s : State) (h : p + w ≤ 88) :
    exec (.bfx p w) s = .next (s.writeResult (BitVec.ofNat 32 (s.bfx p w))).withoutError := by
  simp only [exec, execBfx, bfxOperandError]
  rw [if_neg (by omega)]
  rfl

/-- BCD completes for a byte of FB. -/
theorem exec_bcd {b : Nat} (t : Nat) (s : State) (h : b ≤ 10) :
    exec (.bcd b t) s = .next (s.writeResult (BitVec.ofNat 32 (s.bcd b t))).withoutError := by
  simp only [exec, execBcd, bcdOperandError]
  rw [if_neg (by omega)]
  rfl

end Sys2Proof.Machine
end

