-- ==== Sys2Proof/Laws/Crc.lean ====
section
/-! SUPPORT. The algebra of the CRC register (40_crc8.md R100): it is linear in its contents, and a CRC runs on over
appended bytes. -/

namespace Sys2Proof.Machine

/-- One shift is linear over XOR. -/
theorem crcShift_xor (poly a b : Byte) : crcShift poly (a ^^^ b) = crcShift poly a ^^^ crcShift poly b := by
  unfold crcShift
  rw [BitVec.getLsbD_xor, BitVec.shiftLeft_xor_distrib]
  cases a.getLsbD 7 <;> cases b.getLsbD 7 <;> simp
  · ac_rfl
  · ac_rfl
  · rw [show a <<< 1 ^^^ poly ^^^ (b <<< 1 ^^^ poly) = (a <<< 1 ^^^ b <<< 1) ^^^ (poly ^^^ poly) by ac_rfl]
    simp

/-- So are any number of shifts. -/
theorem crcShifts_xor (poly : Byte) (k : Nat) (a b : Byte) :
    crcShifts poly k (a ^^^ b) = crcShifts poly k a ^^^ crcShifts poly k b := by
  induction k generalizing a b with
  | zero => rfl
  | succ k ih => simp only [crcShifts, crcShift_xor, ih]

/-- Shifts compose. -/
theorem crcShifts_add (poly : Byte) (j k : Nat) (a : Byte) :
    crcShifts poly (j + k) a = crcShifts poly k (crcShifts poly j a) := by
  induction j generalizing a with
  | zero => simp [crcShifts]
  | succ j ih => rw [Nat.succ_add]; simp only [crcShifts, ih]

/-- A zero register stays zero, whatever POLY. -/
theorem crcShifts_zero (poly : Byte) (k : Nat) : crcShifts poly k 0#8 = 0#8 := by
  induction k with
  | zero => rfl
  | succ k ih =>
    have h : crcShift poly 0#8 = 0#8 := by simp [crcShift]
    rw [crcShifts, h, ih]

/-- The CRC of a sequence with more bytes after it starts from the CRC so far. -/
theorem crc8_append (poly init : Byte) (xs ys : List Byte) :
    crc8 poly init (xs ++ ys) = crc8 poly (crc8 poly init xs) ys := List.foldl_append

/-- The CRC of FB depends on POLY, INIT and the covered bytes only (R101, R104). -/
theorem crcOf_congr {s t : State} {n : Nat} (hp : s.poly = t.poly) (hi : s.init = t.init)
    (h : ∀ i, i < n → s.fbByte i = t.fbByte i) : s.crcOf n = t.crcOf n := by
  unfold State.crcOf State.fbBytes
  rw [hp, hi]
  congr 1
  exact List.map_congr_left fun i hi => h i (List.mem_range.1 hi)

end Sys2Proof.Machine
end

