-- ==== Sys2Proof/Laws/Decode.lean ====
section
/-! SUPPORT. The decoder in plain arithmetic, and what a field select can name (30_encoding.md R72 to R80). -/

namespace Sys2Proof

/-- `v[hi:lo]` by division and remainder. -/
theorem bits_eq (v : Word) (hi lo : Nat) : bits v hi lo = v.toNat / 2 ^ lo % 2 ^ (hi + 1 - lo) := by
  simp [bits, Nat.shiftRight_eq_div_pow]

/-- The decoder by division and remainder of the word's number: later proofs use this, not the bit fields. -/
theorem decode_arith (w : Word) : decode w =
    (let x := w.toNat
     if x % 16 = 1 then if 256 ≤ x then .error .rsvdBits else .ok (.crcCalc (x / 16 % 16))
     else if x % 16 = 2 then if 256 ≤ x then .error .rsvdBits else .ok (.crcCheck (x / 16 % 16))
     else if x % 16 = 3 then
       if 65536 ≤ x then .error .rsvdBits else .ok (.bfx (x / 16 % 128) (x / 2048 % 32 + 1))
     else if x % 16 = 4 then
       if 1024 ≤ x then .error .rsvdBits else .ok (.bcd (x / 16 % 16) (x / 256 % 4 + 1))
     else if x % 16 = 5 then
       if 512 ≤ x then .error .rsvdBits
       else match fieldOfSelect (x / 16 % 32) with | some i => .ok i | none => .error .fieldSel
     else .error .illegalOp) := by
  have hx := w.isLt
  have e8 : (bits w 31 8 ≠ 0) = (256 ≤ w.toNat) := by rw [bits_eq]; apply propext; omega
  have e16 : (bits w 31 16 ≠ 0) = (65536 ≤ w.toNat) := by rw [bits_eq]; apply propext; omega
  have e10 : (bits w 31 10 ≠ 0) = (1024 ≤ w.toNat) := by rw [bits_eq]; apply propext; omega
  have e9 : (bits w 31 9 ≠ 0) = (512 ≤ w.toNat) := by rw [bits_eq]; apply propext; omega
  have hop3 : bits w 3 0 = w.toNat % 16 := by rw [bits_eq]; simp
  have n : bits w 7 4 = w.toNat / 16 % 16 := by norm_num [bits_eq]
  have pos : bits w 10 4 = w.toNat / 16 % 128 := by norm_num [bits_eq]
  have wm1 : bits w 15 11 = w.toNat / 2048 % 32 := by norm_num [bits_eq]
  have tw : bits w 9 8 = w.toNat / 256 % 4 := by norm_num [bits_eq]
  have fsel : bits w 8 4 = w.toNat / 16 % 32 := by norm_num [bits_eq]
  unfold decode
  rw [hop3]
  simp only [decodeC, decodeX, decodeD, decodeF, e8, e16, e10, e9, n, pos, wm1, tw, fsel]
  have hop : w.toNat % 16 < 16 := Nat.mod_lt _ (by decide)
  clear hop3
  generalize w.toNat % 16 = op at *
  interval_cases op <;> rfl

/-- FSEL names no command exactly above 20 (R80). -/
theorem fieldOfSelect_eq_none (n : Nat) : fieldOfSelect n = none ↔ 20 < n := by
  constructor
  · intro h
    by_contra hn
    have : n ≤ 20 := by omega
    interval_cases n <;> simp [fieldOfSelect] at h
  · intro h
    match n, h with
    | _ + 21, _ => rfl

/-- A command that FSEL names has no operand and encodes back to that FSEL. -/
theorem fieldOfSelect_eq_some {n : Nat} {i : Instr} (h : fieldOfSelect n = some i) :
    n ≤ 20 ∧ i.wellFormed = true ∧ encode i = encodeF n ∧ Machine.operandError i = none := by
  have hn : n ≤ 20 := by
    by_contra hn
    rw [(fieldOfSelect_eq_none n).2 (by omega)] at h
    cases h
  interval_cases n <;> (cases h; exact ⟨by decide, rfl, rfl, rfl⟩)

/-- Two fields that do not overlap: a number split at bit `k` is the OR of its parts. -/
theorem word_eq_shift_or (w : Word) (f k low : Nat) (h : w.toNat = f * 2 ^ k + low) (hlow : low < 2 ^ k) :
    w = BitVec.ofNat 32 f <<< k ||| BitVec.ofNat 32 low := by
  have hx := w.isLt
  have hf : f ≤ f * 2 ^ k := Nat.le_mul_of_pos_right _ (Nat.two_pow_pos k)
  apply BitVec.eq_of_toNat_eq
  simp only [BitVec.toNat_or, BitVec.toNat_shiftLeft, BitVec.toNat_ofNat]
  rw [Nat.mod_eq_of_lt (a := f) (by omega), Nat.mod_eq_of_lt (a := low) (by omega), Nat.shiftLeft_eq,
    Nat.mod_eq_of_lt (by omega), h, ← Nat.shiftLeft_eq]
  exact Nat.shiftLeft_add_eq_or_of_lt hlow f

end Sys2Proof
end

