-- ==== Sys2Proof/Laws/Extract.lean ====
section
/-! SUPPORT. The extraction primitives in plain arithmetic (41_bitfield_bcd.md R111, R114), bit by bit (R10), and the bytes they
depend on (R112, R116). -/

namespace Sys2Proof.Machine

/-- F of R111 as the sum it names. -/
theorem frame_eq_sum (s : State) : s.frame =
    (s.fbByte 0).toNat * 2 ^ 80 + (s.fbByte 1).toNat * 2 ^ 72 + (s.fbByte 2).toNat * 2 ^ 64 +
    (s.fbByte 3).toNat * 2 ^ 56 + (s.fbByte 4).toNat * 2 ^ 48 + (s.fbByte 5).toNat * 2 ^ 40 +
    (s.fbByte 6).toNat * 2 ^ 32 + (s.fbByte 7).toNat * 2 ^ 24 + (s.fbByte 8).toNat * 2 ^ 16 +
    (s.fbByte 9).toNat * 2 ^ 8 + (s.fbByte 10).toNat := by
  have h : s.fbBytes 11 = [s.fbByte 0, s.fbByte 1, s.fbByte 2, s.fbByte 3, s.fbByte 4, s.fbByte 5, s.fbByte 6,
    s.fbByte 7, s.fbByte 8, s.fbByte 9, s.fbByte 10] := rfl
  rw [State.frame, h]
  simp only [List.foldl_cons, List.foldl_nil]
  omega

/-- `bfx(p, w)` by division and remainder. -/
theorem bfx_eq_div (s : State) (p w : Nat) : s.bfx p w = s.frame / 2 ^ (88 - p - w) % 2 ^ w := by
  rw [State.bfx, Nat.and_two_pow_sub_one_eq_mod, Nat.shiftRight_eq_div_pow]

/-- `bcd(b, T)` by division and remainder. -/
theorem bcd_eq_div (s : State) (b t : Nat) :
    s.bcd b t = (s.fbByte b).toNat / 16 % 2 ^ t * 10 + (s.fbByte b).toNat % 16 := by
  unfold State.bcd
  rw [Nat.and_two_pow_sub_one_eq_mod, Nat.shiftRight_eq_div_pow, show (0x0F : Nat) = 2 ^ 4 - 1 from rfl,
    Nat.and_two_pow_sub_one_eq_mod]

/-! ### Frame bits -/

/-- The digits of a big-endian byte string: digit `q` from the top is bit `7 - (q mod 8)` of byte `q div 8`. -/
theorem foldl_testBit (l : List Byte) : ∀ q, q < 8 * l.length →
    (l.foldl (fun f (b : Byte) => f * 256 + b.toNat) 0).testBit (8 * l.length - 1 - q) =
      ((l[q / 8]?).getD 0).getLsbD (7 - q % 8) := by
  induction l using List.reverseRecOn with
  | nil => intro q h; simp at h
  | append_singleton l b ih =>
    intro q h
    rw [List.foldl_append]
    simp only [List.foldl_cons, List.foldl_nil, List.length_append, List.length_singleton] at *
    generalize l.foldl (fun f (b : Byte) => f * 256 + b.toNat) 0 = m at *
    rw [show m * 256 = 2 ^ 8 * m by ring, Nat.testBit_two_pow_mul_add m b.isLt]
    by_cases hq : q < 8 * l.length
    · rw [if_neg (by omega), show 8 * (l.length + 1) - 1 - q - 8 = 8 * l.length - 1 - q by omega, ih q hq,
        List.getElem?_append_left (by omega)]
    · rw [if_pos (by omega), List.getElem?_append_right (by omega), show q / 8 - l.length = 0 by omega,
        show 8 * (l.length + 1) - 1 - q = 7 - q % 8 by omega]
      rfl

/-- R10: frame bit `q` is bit `7 - (q mod 8)` of `FB[q div 8]`. -/
theorem frame_testBit (s : State) {q : Nat} (h : q < 88) :
    s.frame.testBit (87 - q) = (s.fbByte (q / 8)).getLsbD (7 - q % 8) := by
  have hlen : (s.fbBytes 11).length = 11 := by simp [State.fbBytes]
  have hb := foldl_testBit (s.fbBytes 11) q (by omega)
  rw [hlen] at hb
  rw [State.frame, show 87 - q = 8 * 11 - 1 - q by omega, hb]
  have : q / 8 < 11 := by omega
  simp [State.fbBytes, this]

/-- Bit `j` of `bfx(p, w)` is frame bit `p + w - 1 - j`. -/
theorem bfx_testBit (s : State) {p w : Nat} (h : p + w ≤ 88) (j : Nat) : (s.bfx p w).testBit j =
    (decide (j < w) && (s.fbByte ((p + w - 1 - j) / 8)).getLsbD (7 - (p + w - 1 - j) % 8)) := by
  rw [State.bfx, Nat.and_two_pow_sub_one_eq_mod, Nat.testBit_mod_two_pow, Nat.testBit_shiftRight]
  by_cases hj : j < w
  · rw [← frame_testBit s (by omega), show 88 - p - w + j = 87 - (p + w - 1 - j) by omega]
  · simp [hj]

/-- R112: `bfx(p, w)` depends on FB bytes `p div 8` to `(p + w - 1) div 8` only. -/
theorem bfx_congr {s t : State} {p w : Nat} (h : p + w ≤ 88)
    (hb : ∀ k, p / 8 ≤ k → k ≤ (p + w - 1) / 8 → s.fbByte k = t.fbByte k) : s.bfx p w = t.bfx p w := by
  refine Nat.eq_of_testBit_eq fun j => ?_
  rw [bfx_testBit s h, bfx_testBit t h]
  by_cases hj : j < w
  · rw [hb _ (by omega) (by omega)]
  · simp [hj]

/-- R116: `bcd(b, T)` depends on `FB[b]` only. -/
theorem bcd_congr {s t : State} {b : Nat} (hb : s.fbByte b = t.fbByte b) (w : Nat) : s.bcd b w = t.bcd b w := by
  simp only [State.bcd, hb]

end Sys2Proof.Machine
end

