-- ==== Sys2Proof/Laws/PerInstr.lean ====
section
/-! SUPPORT. Facts proved command by command, about commands as syntax: their opcode nibble (30_encoding.md R72). -/

namespace Sys2Proof

/-- R72: the value of OP for each command. -/
def opNibble : Instr → Nat
  | .crcCalc _ => 0x1
  | .crcCheck _ => 0x2
  | .bfx _ _ => 0x3
  | .bcd _ _ => 0x4
  | _ => 0x5

/-- An operand shifted above the opcode nibble leaves it alone. -/
theorem bits_op_of_shift (a b : Word) (k : Nat) (hk : 4 ≤ k) : bits (a <<< k ||| b) 3 0 = bits b 3 0 := by
  have h : (a <<< k ||| b).toNat % 2 ^ 4 = b.toNat % 2 ^ 4 := by
    rw [← BitVec.toNat_setWidth, ← BitVec.toNat_setWidth]
    congr 1
    ext j hj
    have : j < k := by omega
    simp [this]
  simpa [bits] using h

namespace Laws.OpNibble

/-- The word of a command carries its OP (R72), whatever the operands. -/
def Statement (i : Instr) : Prop := bits (encode i) 3 0 = opNibble i

theorem crcCalc (n : Nat) : Statement (.crcCalc n) := bits_op_of_shift _ _ 4 (by decide)
theorem crcCheck (n : Nat) : Statement (.crcCheck n) := bits_op_of_shift _ _ 4 (by decide)
theorem bfx (pos width : Nat) : Statement (.bfx pos width) := by
  have h := bits_op_of_shift (BitVec.ofNat 32 (width - 1)) (BitVec.ofNat 32 pos <<< 4 ||| 0x3#32) 11 (by decide)
  rw [← BitVec.or_assoc, bits_op_of_shift _ _ 4 (by decide)] at h
  exact h
theorem bcd (byte tens : Nat) : Statement (.bcd byte tens) := by
  have h := bits_op_of_shift (BitVec.ofNat 32 (tens - 1)) (BitVec.ofNat 32 byte <<< 4 ||| 0x4#32) 8 (by decide)
  rw [← BitVec.or_assoc, bits_op_of_shift _ _ 4 (by decide)] at h
  exact h
theorem fieldDeviceId : Statement (.fieldDeviceId) := bits_op_of_shift _ _ 4 (by decide)
theorem fieldTempRaw : Statement (.fieldTempRaw) := bits_op_of_shift _ _ 4 (by decide)
theorem fieldTempTenths : Statement (.fieldTempTenths) := bits_op_of_shift _ _ 4 (by decide)
theorem fieldHumidity : Statement (.fieldHumidity) := bits_op_of_shift _ _ 4 (by decide)
theorem fieldWindAvg : Statement (.fieldWindAvg) := bits_op_of_shift _ _ 4 (by decide)
theorem fieldWindGust : Statement (.fieldWindGust) := bits_op_of_shift _ _ 4 (by decide)
theorem fieldRain : Statement (.fieldRain) := bits_op_of_shift _ _ 4 (by decide)
theorem fieldWindDir : Statement (.fieldWindDir) := bits_op_of_shift _ _ 4 (by decide)
theorem fieldBatteryOk : Statement (.fieldBatteryOk) := bits_op_of_shift _ _ 4 (by decide)
theorem fieldHours : Statement (.fieldHours) := bits_op_of_shift _ _ 4 (by decide)
theorem fieldMinutes : Statement (.fieldMinutes) := bits_op_of_shift _ _ 4 (by decide)
theorem fieldSeconds : Statement (.fieldSeconds) := bits_op_of_shift _ _ 4 (by decide)
theorem fieldYear : Statement (.fieldYear) := bits_op_of_shift _ _ 4 (by decide)
theorem fieldMonth : Statement (.fieldMonth) := bits_op_of_shift _ _ 4 (by decide)
theorem fieldDay : Statement (.fieldDay) := bits_op_of_shift _ _ 4 (by decide)
theorem fieldSignalDcf77 : Statement (.fieldSignalDcf77) := bits_op_of_shift _ _ 4 (by decide)
theorem fieldUvSensorId : Statement (.fieldUvSensorId) := bits_op_of_shift _ _ 4 (by decide)
theorem fieldUvStatusOk : Statement (.fieldUvStatusOk) := bits_op_of_shift _ _ 4 (by decide)
theorem fieldUvIndex : Statement (.fieldUvIndex) := bits_op_of_shift _ _ 4 (by decide)
theorem fieldLightRaw : Statement (.fieldLightRaw) := bits_op_of_shift _ _ 4 (by decide)
theorem fieldMsgType : Statement (.fieldMsgType) := bits_op_of_shift _ _ 4 (by decide)

end Laws.OpNibble

end Sys2Proof
end

