-- ==== Sys2Proof/Laws/ReadSet.lean ====
section
/-! SUPPORT. What a command reads: its effect depends on POLY, INIT and the FB bytes of its read set only (R101, R112, R116,
R120). -/

namespace Sys2Proof.Machine

/-- The bytes of a BFX field are those of its read set. -/
theorem mem_readSet_bfx {p w k : Nat} (h1 : p / 8 ≤ k) (h2 : k ≤ (p + w - 1) / 8) : k ∈ readSet (.bfx p w) := by
  simp only [readSet, List.mem_range'_1]
  omega

/-- A command that passes its operand check makes the same writes in two states that agree on POLY, INIT and the FB bytes of its
read set. -/
theorem exec_readSet {i : Instr} {s t : State} (hop : operandError i = none) (hp : s.poly = t.poly) (hi : s.init = t.init)
    (hb : ∀ k ∈ readSet i, s.fbByte k = t.fbByte k) :
    (∃ c, exec i s = .next (s.writeCrcValue c).withoutError ∧ exec i t = .next (t.writeCrcValue c).withoutError) ∨
    (∃ c b, exec i s = .next ((s.writeCrcValue c).writeValid b).withoutError ∧
      exec i t = .next ((t.writeCrcValue c).writeValid b).withoutError) ∨
    (∃ v, exec i s = .next (s.writeResult v).withoutError ∧ exec i t = .next (t.writeResult v).withoutError) := by
  have hx : ∀ p w, p + w ≤ 88 → (∀ k < 11, p / 8 ≤ k → k ≤ (p + w - 1) / 8 → k ∈ readSet i) → s.bfx p w = t.bfx p w :=
    fun p w h hk => bfx_congr h fun k h1 h2 => hb k (hk k (by omega) h1 h2)
  have hd : ∀ b, b ∈ readSet i → ∀ w, s.bcd b w = t.bcd b w := fun b h w => bcd_congr (hb b h) w
  cases i with
  | crcCalc n =>
    have hn : n ≤ 11 := by simpa [operandError, crcCalcOperandError] using hop
    have hc : s.crcOf n = t.crcOf n := crcOf_congr hp hi fun k hk => hb k (List.mem_range.2 hk)
    exact .inl ⟨_, exec_crcCalc s hn, hc ▸ exec_crcCalc t hn⟩
  | crcCheck n =>
    have hn : n ≤ 10 := by simpa [operandError, crcCheckOperandError] using hop
    have hc : s.crcOf n = t.crcOf n := crcOf_congr hp hi fun k hk => hb k (List.mem_range.2 (by omega))
    have ht : s.fbByte n = t.fbByte n := hb n (List.mem_range.2 (by omega))
    exact .inr (.inl ⟨_, _, exec_crcCheck s hn, by rw [hc, ht]; exact exec_crcCheck t hn⟩)
  | bfx p w =>
    have hn : p + w ≤ 88 := by simpa [operandError, bfxOperandError] using hop
    exact .inr (.inr ⟨_, exec_bfx s hn, by
      rw [hx p w hn fun k _ h1 h2 => mem_readSet_bfx h1 h2]; exact exec_bfx t hn⟩)
  | bcd b w =>
    have hn : b ≤ 10 := by simpa [operandError, bcdOperandError] using hop
    exact .inr (.inr ⟨_, exec_bcd w s hn, by rw [hd b (List.mem_singleton.2 rfl)]; exact exec_bcd w t hn⟩)
  | fieldDeviceId => exact .inr (.inr ⟨_, by simp only [exec, execFieldDeviceId, finishField, completeCommand, hx 12 8 (by decide) (by decide)], rfl⟩)
  | fieldTempRaw => exact .inr (.inr ⟨_, by simp only [exec, execFieldTempRaw, finishField, completeCommand, hx 20 12 (by decide) (by decide)], rfl⟩)
  | fieldTempTenths => exact .inr (.inr ⟨_, by simp only [exec, execFieldTempTenths, finishField, completeCommand, hx 20 12 (by decide) (by decide)], rfl⟩)
  | fieldHumidity => exact .inr (.inr ⟨_, by simp only [exec, execFieldHumidity, finishField, completeCommand, hx 32 8 (by decide) (by decide)], rfl⟩)
  | fieldWindAvg => exact .inr (.inr ⟨_, by simp only [exec, execFieldWindAvg, finishField, completeCommand, hx 40 8 (by decide) (by decide)], rfl⟩)
  | fieldWindGust => exact .inr (.inr ⟨_, by simp only [exec, execFieldWindGust, finishField, completeCommand, hx 48 8 (by decide) (by decide)], rfl⟩)
  | fieldRain => exact .inr (.inr ⟨_, by simp only [exec, execFieldRain, finishField, completeCommand, hx 60 12 (by decide) (by decide)], rfl⟩)
  | fieldWindDir => exact .inr (.inr ⟨_, by simp only [exec, execFieldWindDir, finishField, completeCommand, hx 76 4 (by decide) (by decide)], rfl⟩)
  | fieldBatteryOk => exact .inr (.inr ⟨_, by simp only [exec, execFieldBatteryOk, finishField, completeCommand, hx 72 4 (by decide) (by decide)], rfl⟩)
  | fieldHours => exact .inr (.inr ⟨_, by simp only [exec, execFieldHours, finishField, completeCommand, hd 3 (by decide)], rfl⟩)
  | fieldMinutes => exact .inr (.inr ⟨_, by simp only [exec, execFieldMinutes, finishField, completeCommand, hd 4 (by decide)], rfl⟩)
  | fieldSeconds => exact .inr (.inr ⟨_, by simp only [exec, execFieldSeconds, finishField, completeCommand, hd 5 (by decide)], rfl⟩)
  | fieldYear => exact .inr (.inr ⟨_, by simp only [exec, execFieldYear, finishField, completeCommand, hd 6 (by decide)], rfl⟩)
  | fieldMonth => exact .inr (.inr ⟨_, by simp only [exec, execFieldMonth, finishField, completeCommand, hd 7 (by decide)], rfl⟩)
  | fieldDay => exact .inr (.inr ⟨_, by simp only [exec, execFieldDay, finishField, completeCommand, hd 8 (by decide)], rfl⟩)
  | fieldSignalDcf77 => exact .inr (.inr ⟨_, by simp only [exec, execFieldSignalDcf77, finishField, completeCommand, hx 20 4 (by decide) (by decide)], rfl⟩)
  | fieldUvSensorId => exact .inr (.inr ⟨_, by simp only [exec, execFieldUvSensorId, finishField, completeCommand, hx 12 8 (by decide) (by decide)], rfl⟩)
  | fieldUvStatusOk => exact .inr (.inr ⟨_, by simp only [exec, execFieldUvStatusOk, finishField, completeCommand, hx 24 8 (by decide) (by decide)], rfl⟩)
  | fieldUvIndex => exact .inr (.inr ⟨_, by simp only [exec, execFieldUvIndex, finishField, completeCommand, hx 20 4 (by decide) (by decide)], rfl⟩)
  | fieldLightRaw => exact .inr (.inr ⟨_, by simp only [exec, execFieldLightRaw, finishField, completeCommand, hx 32 24 (by decide) (by decide)], rfl⟩)
  | fieldMsgType => exact .inr (.inr ⟨_, by simp only [exec, execFieldMsgType, finishField, completeCommand, hx 8 4 (by decide) (by decide)], rfl⟩)

end Sys2Proof.Machine
end

