-- ==== Sys2Proof/Laws/Window.lean ====
section
/-! SUPPORT. What one step can do, said once: an access R52 admits is served, any other stops, and a CMD write is either
refused or runs the command it decodes to. -/

namespace Sys2Proof.Machine

/-- An access has a fault exactly when R52 does not admit it. -/
theorem accessFault_eq_none (size : AccessSize) (off : Nat) :
    accessFault size off = none ↔ size = .word ∧ off % 4 = 0 ∧ off ≤ 0x7C := by
  unfold accessFault
  split
  · simp only [reduceCtorEq, false_iff]; tauto
  · split
    · simp only [reduceCtorEq, false_iff]; omega
    · simp only [true_iff]; exact ⟨by tauto, by tauto, by omega⟩

/-- A reset or an admitted access. -/
theorem admitted_iff (e : HostEvent) : e.admitted = true ↔
    e = .reset ∨ (∃ off, e = .read .word off ∧ off % 4 = 0 ∧ off ≤ 0x7C) ∨
      (∃ off v, e = .write .word off v ∧ off % 4 = 0 ∧ off ≤ 0x7C) := by
  cases e <;> simp [HostEvent.admitted] <;> tauto

/-- Executing a command word: refused with the error R81 gives it, or the command it decodes to completes. -/
theorem executeWord_cases (w : Word) (s : State) :
    (∃ e, commandError w = some e ∧ executeWord w s = .next (s.withError e)) ∨
    (∃ i, commandError w = none ∧ decode w = .ok i ∧ executeWord w s = exec i s) := by
  unfold executeWord commandError
  rcases decode w with e | i
  · exact .inl ⟨e, rfl, rfl⟩
  · rcases exec_cases i s with ⟨e, he, h⟩ | ⟨n, rfl, hn, h⟩ | ⟨n, rfl, hn, h⟩ | ⟨-, he, -⟩
    · exact .inl ⟨e, he, h⟩
    · exact .inr ⟨_, by simp [operandError, crcCalcOperandError]; omega, rfl, rfl⟩
    · exact .inr ⟨_, by simp [operandError, crcCheckOperandError]; omega, rfl, rfl⟩
    · exact .inr ⟨i, he, rfl, rfl⟩

/-- Executing a command word leaves CMD (written before), CRC_CFG, FB and everything of the host's as they were. -/
theorem executeWord_keeps {w : Word} {s t : State} (h : executeWord w s = .next t) :
    t.cmd = s.cmd ∧ t.poly = s.poly ∧ t.init = s.init ∧ t.fb = s.fb ∧ t.pending = s.pending ∧ t.reads = s.reads ∧
      t.served = s.served := by
  rcases executeWord_cases w s with ⟨e, -, h'⟩ | ⟨i, -, -, h'⟩ <;> rw [h'] at h
  · cases h; simp
  · exact exec_keeps h

/-- How a command word leaves ERR and ERRCODE: the error R81 gives it, or none. -/
theorem executeWord_status {w : Word} {s t : State} (h : executeWord w s = .next t) :
    (∃ e, commandError w = some e ∧ t = s.withError e) ∨
    (commandError w = none ∧ t.err = false ∧ t.errcode = 0#4) := by
  rcases executeWord_cases w s with ⟨e, he, h'⟩ | ⟨i, he, hd, h'⟩ <;> rw [h'] at h
  · cases h; exact .inl ⟨e, he, rfl⟩
  · rcases exec_status h with ⟨e, h1, rfl⟩ | h1
    · simp [commandError, hd, h1] at he
    · exact .inr ⟨he, h1.2⟩

/-- Executing a command word always completes. -/
theorem executeWord_next (w : Word) (s : State) : ∃ t, executeWord w s = .next t := by
  rcases executeWord_cases w s with ⟨e, -, h⟩ | ⟨i, -, -, h⟩
  · exact ⟨_, h⟩
  · rw [h]
    rcases exec_cases i s with ⟨e, -, h⟩ | ⟨n, -, -, h⟩ | ⟨n, -, -, h⟩ | ⟨-, -, v, h⟩ <;> exact ⟨_, h⟩

/-- Every register write completes. -/
theorem writeReg_next (r : WindowReg) (v : Word) (s : State) : ∃ t, writeReg r v s = .next t := by
  cases r with
  | cmd => exact executeWord_next _ _
  | _ => exact ⟨_, rfl⟩

/-- A step with nothing pending holds the state. -/
theorem step_idle {s : State} (h : s.pending = []) : step s = .next s := by
  simp only [step, serveNext, h]

/-- A step with an event pending serves it. -/
theorem step_event {s : State} {e : HostEvent} {rest : List HostEvent} (h : s.pending = e :: rest) :
    step s = serveEvent e (s.accept rest) := by
  simp only [step, serveNext, h]

/-- An admitted read returns its register. -/
theorem serveEvent_read {off : Nat} (s : State) (h4 : off % 4 = 0) (h : off ≤ 0x7C) :
    serveEvent (.read .word off) s = .next (s.returnRead (s.readReg (regAt off))) := by
  simp only [serveEvent, (accessFault_eq_none .word off).2 ⟨rfl, h4, h⟩]

/-- An admitted write writes its register. -/
theorem serveEvent_write {off : Nat} (v : Word) (s : State) (h4 : off % 4 = 0) (h : off ≤ 0x7C) :
    serveEvent (.write .word off v) s = writeReg (regAt off) v s := by
  simp only [serveEvent, (accessFault_eq_none .word off).2 ⟨rfl, h4, h⟩]

/-- FBi's offset names it. -/
theorem regAt_fb (i : Nat) (h : i < 11) : regAt (0x40 + 4 * i) = .fb i := by
  interval_cases i <;> rfl

/-- Everything a step that answers a next state can do. -/
theorem step_cases {s t : State} (h : step s = .next t) :
    (s.pending = [] ∧ t = s) ∨
    (∃ rest, s.pending = .reset :: rest ∧ t = (s.accept rest).afterReset) ∨
    (∃ off rest, s.pending = .read .word off :: rest ∧ off % 4 = 0 ∧ off ≤ 0x7C ∧
      t = (s.accept rest).returnRead ((s.accept rest).readReg (regAt off))) ∨
    (∃ off v rest, s.pending = .write .word off v :: rest ∧ off % 4 = 0 ∧ off ≤ 0x7C ∧
      writeReg (regAt off) v (s.accept rest) = .next t) := by
  rcases hp : s.pending with _ | ⟨e, rest⟩
  · rw [step_idle hp] at h
    cases h
    exact .inl ⟨rfl, rfl⟩
  · rw [step_event hp] at h
    cases e with
    | reset => cases h; exact .inr (.inl ⟨rest, rfl, rfl⟩)
    | read size off =>
      rcases hf : accessFault size off with _ | f
      · obtain ⟨rfl, h4, hle⟩ := (accessFault_eq_none size off).1 hf
        rw [serveEvent_read _ h4 hle] at h
        cases h
        exact .inr (.inr (.inl ⟨off, rest, rfl, h4, hle, rfl⟩))
      · simp only [serveEvent, hf] at h; cases h
    | write size off v =>
      rcases hf : accessFault size off with _ | f
      · obtain ⟨rfl, h4, hle⟩ := (accessFault_eq_none size off).1 hf
        rw [serveEvent_write _ _ h4 hle] at h
        exact .inr (.inr (.inr ⟨off, v, rest, rfl, h4, hle, h⟩))
      · simp only [serveEvent, hf] at h; cases h

end Sys2Proof.Machine
end

