-- ==== Sys2Proof/Tests/Slice0.lean ====
section
/-! SUPPORT. Tests: the checks of WellFormed, every command's word written out from its format, the spec's vectors
(95_test_vectors.md, by their V and P numbers) one step at a time, and, for each obligation with hypotheses, a witness
that meets them. Every expected value is the spec's. -/

namespace Sys2Proof.Tests

open Sys2Proof.Machine

/-! ### WellFormed: one ill-formed term for each check, and the boundary terms it accepts -/

theorem test_illFormed_crcCalc : (Instr.crcCalc 16).wellFormed = false := by decide
theorem test_illFormed_crcCheck : (Instr.crcCheck 16).wellFormed = false := by decide
theorem test_illFormed_bfx_pos : (Instr.bfx 128 8).wellFormed = false := by decide
theorem test_illFormed_bfx_width0 : (Instr.bfx 0 0).wellFormed = false := by decide
theorem test_illFormed_bfx_width33 : (Instr.bfx 0 33).wellFormed = false := by decide
theorem test_illFormed_bcd_byte : (Instr.bcd 16 1).wellFormed = false := by decide
theorem test_illFormed_bcd_tens0 : (Instr.bcd 0 0).wellFormed = false := by decide
theorem test_illFormed_bcd_tens5 : (Instr.bcd 0 5).wellFormed = false := by decide
theorem test_wellFormed_boundaries :
    (Instr.crcCalc 15).wellFormed ∧ (Instr.crcCheck 15).wellFormed ∧ (Instr.bfx 127 32).wellFormed ∧
      (Instr.bcd 15 4).wellFormed ∧ Instr.fieldMsgType.wellFormed := by decide
theorem test_assemble : assemble (.bfx 57 32) = some 0x0000FB93#32 ∧ assemble (.bfx 128 1) = none ∧
    assembleField 21 = some 0x00000155#32 ∧ assembleField 32 = none := by decide

/-! ### Decoding: every constructor by a word written bit by bit from R73 to R76 -/

-- format C: 24 reserved bits, nnnn, OP
theorem test_decode_crcCalc : decode 0b000000000000000000000000_1010_0001#32 = .ok (.crcCalc 10) := by rfl
theorem test_decode_crcCheck : decode 0b000000000000000000000000_0111_0010#32 = .ok (.crcCheck 7) := by rfl
-- format X: 16 reserved bits, WM1, POS, OP
theorem test_decode_bfx : decode 0b0000000000000000_00111_0001100_0011#32 = .ok (.bfx 12 8) := by rfl
theorem test_decode_bfx_largest : decode 0b0000000000000000_11111_1111111_0011#32 = .ok (.bfx 127 32) := by rfl
-- format D: 22 reserved bits, TW, BYTE, OP
theorem test_decode_bcd : decode 0b0000000000000000000000_01_0011_0100#32 = .ok (.bcd 3 2) := by rfl
theorem test_decode_bcd_largest : decode 0b0000000000000000000000_11_1111_0100#32 = .ok (.bcd 15 4) := by rfl
-- format F: 23 reserved bits, FSEL, OP
theorem test_decode_field0 : decode 0b00000000000000000000000_00000_0101#32 = .ok .fieldDeviceId := by rfl
theorem test_decode_field1 : decode 0b00000000000000000000000_00001_0101#32 = .ok .fieldTempRaw := by rfl
theorem test_decode_field2 : decode 0b00000000000000000000000_00010_0101#32 = .ok .fieldTempTenths := by rfl
theorem test_decode_field3 : decode 0b00000000000000000000000_00011_0101#32 = .ok .fieldHumidity := by rfl
theorem test_decode_field4 : decode 0b00000000000000000000000_00100_0101#32 = .ok .fieldWindAvg := by rfl
theorem test_decode_field5 : decode 0b00000000000000000000000_00101_0101#32 = .ok .fieldWindGust := by rfl
theorem test_decode_field6 : decode 0b00000000000000000000000_00110_0101#32 = .ok .fieldRain := by rfl
theorem test_decode_field7 : decode 0b00000000000000000000000_00111_0101#32 = .ok .fieldWindDir := by rfl
theorem test_decode_field8 : decode 0b00000000000000000000000_01000_0101#32 = .ok .fieldBatteryOk := by rfl
theorem test_decode_field9 : decode 0b00000000000000000000000_01001_0101#32 = .ok .fieldHours := by rfl
theorem test_decode_field10 : decode 0b00000000000000000000000_01010_0101#32 = .ok .fieldMinutes := by rfl
theorem test_decode_field11 : decode 0b00000000000000000000000_01011_0101#32 = .ok .fieldSeconds := by rfl
theorem test_decode_field12 : decode 0b00000000000000000000000_01100_0101#32 = .ok .fieldYear := by rfl
theorem test_decode_field13 : decode 0b00000000000000000000000_01101_0101#32 = .ok .fieldMonth := by rfl
theorem test_decode_field14 : decode 0b00000000000000000000000_01110_0101#32 = .ok .fieldDay := by rfl
theorem test_decode_field15 : decode 0b00000000000000000000000_01111_0101#32 = .ok .fieldSignalDcf77 := by rfl
theorem test_decode_field16 : decode 0b00000000000000000000000_10000_0101#32 = .ok .fieldUvSensorId := by rfl
theorem test_decode_field17 : decode 0b00000000000000000000000_10001_0101#32 = .ok .fieldUvStatusOk := by rfl
theorem test_decode_field18 : decode 0b00000000000000000000000_10010_0101#32 = .ok .fieldUvIndex := by rfl
theorem test_decode_field19 : decode 0b00000000000000000000000_10011_0101#32 = .ok .fieldLightRaw := by rfl
theorem test_decode_field20 : decode 0b00000000000000000000000_10100_0101#32 = .ok .fieldMsgType := by rfl
/-- The interface's decoder: one row by its number, and a word that decodes to nothing. -/
theorem test_decodeTableWord : decodeTableWord 32 0x38C3 = some (.bfx 12 8) ∧ decodeTableWord 32 0x1A2 = none := by
  decide

/-! ### Refused words: V24 to V26, V43, V60, V85 to V88 and V90 to V95 -/

/-- The code STATUS.ERRCODE gets for a word (0: it executes). -/
def codes (ws : List Word) : List (BitVec 4) := ws.map commandErrorCode

theorem test_illegalOp : codes [0x00000000#32, 0x00000006#32, 0x0000000F#32, 0xFFFFFFFF#32, 0x00000100#32, 0x000000A0#32]
    = [1#4, 1#4, 1#4, 1#4, 1#4, 1#4] := by decide
theorem test_rsvdBits : codes [0x000001A2#32, 0x800000A2#32, 0x000001F2#32, 0x00013803#32, 0x00000534#32, 0x00000205#32,
    0x000003F5#32] = [2#4, 2#4, 2#4, 2#4, 2#4, 2#4, 2#4] := by decide
theorem test_operandRange : codes [0x000000B2#32, 0x000000C1#32, 0x000000F1#32, 0x0000FB93#32, 0x00000583#32, 0x0000FFF3#32,
    0x000003B4#32, 0x000000F4#32, 0x00000155#32, 0x000001F5#32]
    = [3#4, 3#4, 3#4, 4#4, 4#4, 4#4, 5#4, 5#4, 6#4, 6#4] := by decide

/-! ### Small states -/

/-- FB holding the bytes given, the rest not written. -/
def fbOf (bs : List Byte) : Vector (Option Byte) 11 := Vector.ofFn fun i => bs[i.val]?

/-- The reset state with those bytes in FB. -/
def loaded (bs : List Byte) : State := { State.reset with fb := fbOf bs }

def frameA : State := loaded [0xFF, 0xA1, 0x21, 0x90, 0x54, 0x0A, 0x05, 0x00, 0x12, 0x00, 0x12]
def frameW : State := loaded [0xFF, 0xA5, 0x30, 0x64, 0x41, 0x03, 0x07, 0x12, 0x34, 0x1C, 0xC9]
def frameDT : State := loaded [0xFF, 0xBA, 0x3A, 0x23, 0x59, 0x58, 0x26, 0x11, 0x11, 0x00, 0x41]
def frameC : State := loaded [0xFF, 0x71, 0x25, 0x55, 0x01, 0x86, 0xA0, 0x25]
/-- The harness preset of section 0: what a refused command must leave. -/
def stale : State := { frameA with crcv := 0x5A, result := 0xDEADBEEF, valid := true }

/-- `s` with these bus events pending. -/
def issue (s : State) (es : List HostEvent) : State := { s with pending := es }

/-- The next state of an outcome, for the tests whose outcome is one. -/
def after : Outcome → State
  | .next t => t
  | _ => State.reset

/-- One step that runs a command word: RESULT, CRC_VALUE and STATUS afterwards. -/
def ran (s : State) (w : Nat) : Option (Word × Byte × Word) :=
  match step (s.withFetchWord 32 w) with
  | .next t => some (t.result, t.crcv, t.statusWord)
  | _ => none

/-- RESULT after each command word, each from `s`. -/
def results (s : State) (ws : List Nat) : List (Option Nat) := ws.map fun w => (ran s w).map (·.1.toNat)

/-- Frame A with byte `i` changed. -/
def changed (i : Nat) (b : Byte) : State := { frameA with fb := frameA.fb.setIfInBounds i (some b) }

/-! ### CRC commands: V1, V11 to V28 -/

theorem test_crcCalc : ran State.reset 0x01 = some (0, 0xFF, 0) ∧ ran (loaded [0x00]) 0x11 = some (0, 0xAC, 0) ∧
    ran (loaded [0xFF]) 0x11 = some (0, 0x00, 0) := by decide +kernel
theorem test_crcCalc_frame : ran frameA 0xA1 = some (0, 0x12, 0) ∧ ran frameA 0xB1 = some (0, 0x00, 0) ∧
    ran { frameA with poly := 0 } 0xA1 = some (0, 0x00, 0) ∧ ran { frameA with init := 0 } 0xA1 = some (0, 0x99, 0) := by
  decide +kernel
/-- V10: the customary check input, nine bytes 0x31 to 0x39. -/
theorem test_crcCalc_check_value :
    ran (loaded [0x31, 0x32, 0x33, 0x34, 0x35, 0x36, 0x37, 0x38, 0x39]) 0x91 = some (0, 0xF7, 0) := by decide +kernel
theorem test_crcCheck : ran frameA 0xA2 = some (0, 0x12, 1) ∧ ran (changed 10 0x13) 0xA2 = some (0, 0x12, 0) ∧
    ran frameC 0x72 = some (0, 0x25, 1) ∧ ran (loaded [0xFF]) 0x02 = some (0, 0xFF, 1) := by decide +kernel
theorem test_crcCheck_other_frames : ran frameW 0xA2 = some (0, 0xC9, 1) ∧ ran frameDT 0xA2 = some (0, 0x41, 1) ∧
    ran (changed 0 0x7F) 0xA2 = some (0, 0x61, 0) ∧ ran (changed 9 0x01) 0xA2 = some (0, 0x23, 0) := by decide +kernel
/-- V21 to V23 and V28, and a later command clears the error but not VALID (P4). -/
theorem test_crc_refused : ran stale 0xB2 = some (0xDEADBEEF, 0x5A, 0x32) ∧ ran stale 0xC1 = some (0xDEADBEEF, 0x5A, 0x32) ∧
    ran { frameA with err := true, errcode := 3 } 0x134 = some (0x0000000A, 0x00, 0) := by decide +kernel

/-! ### BFX and BCD: V30 to V59 -/

theorem test_bfx : results frameA [0x3803, 0x0003, 0x0573, 0x3D03, 0x38C3, 0x1883, 0x5843, 0x2033, 0xF803, 0xFB83] =
    [some 0xFF, some 1, some 0, some 0x12, some 0x12, some 0xA, some 0xFA1, some 0x1F, some 0xFFA12190,
      some 0x00120012] := by decide +kernel
theorem test_bfx_refused : ran stale 0xFB93 = some (0xDEADBEEF, 0x5A, 0x42) ∧ ran stale 0x3803 = some (0xFF, 0x5A, 1) := by
  decide +kernel
theorem test_bcd : results frameA [0x134, 0x344, 0x354, 0x004, 0x104, 0x204, 0x304, 0x3A4] =
    [some 10, some 54, some 10, some 25, some 45, some 85, some 165, some 12] := by decide +kernel
theorem test_bcd_refused : ran stale 0x3B4 = some (0xDEADBEEF, 0x5A, 0x52) ∧ ran stale 0x0F4 = some (0xDEADBEEF, 0x5A, 0x52) := by
  decide +kernel

/-! ### FIELD: the table of section 2.4, V3 and the corner cases V70 to V82 -/

/-- The 21 FIELD words in FSEL order. -/
def fieldWords : List Nat := (List.range 21).map fun k => 16 * k + 5

theorem test_fields_A : results frameA fieldWords = [18, 400, 0, 84, 10, 5, 18, 0, 1, 10, 54, 10, 2005, 0, 12, 0, 18, 0, 1,
    5507589, 1].map some := by decide +kernel
theorem test_fields_W : results frameW fieldWords = [83, 100, 0xFFFFFED4, 65, 3, 7, 564, 12, 0, 24, 41, 3, 2007, 12, 34, 0, 83,
    0, 0, 4260615, 1].map some := by decide +kernel
theorem test_fields_DT : results frameDT fieldWords = [163, 2595, 2195, 89, 88, 38, 273, 0, 1, 23, 59, 58, 2026, 11, 11, 1,
    163, 0, 10, 5855270, 2].map some := by decide +kernel
/-- FB[8..10] are padded here only so that the kernel can evaluate FRAME (R112: no bit of them reaches these fields). -/
theorem test_fields_C : results (loaded [0xFF, 0x71, 0x25, 0x55, 0x01, 0x86, 0xA0, 0x25, 0x3C, 0x5A, 0x99]) [0x105, 0x115, 0x125, 0x135, 0x145] = [0x12, 1, 5, 100000, 3].map some := by
  decide +kernel
theorem test_tempTenths : (results { changed 2 0x20 with fb := (changed 2 0x20).fb.setIfInBounds 3 (some 0x00) } [0x25],
    results (changed 3 0x8F) [0x25], results (changed 3 0x91) [0x25]) =
    ([some 0xFFFFFE70], [some 0xFFFFFFFF], [some 1]) := by decide +kernel
theorem test_batteryOk : [0x03, 0x13, 0x23, 0xF3].map (fun b => results (changed 9 b) [0x85]) =
    [[some 1], [some 0], [some 1], [some 1]] := by decide +kernel
theorem test_signalDcf77 : [0x0A, 0x1A, 0xFA, 0x0B, 0x09].map (fun b => results (changed 2 b) [0xF5]) =
    [[some 1], [some 1], [some 1], [some 0], [some 0]] := by decide +kernel
theorem test_msgType : [0x00, 0x7F, 0xA0, 0xAF, 0xB5, 0x70, 0xC1, 0x0A, 0xFF].map (fun b => results (changed 1 b) [0x145]) =
    [[some 0], [some 3], [some 1], [some 1], [some 2], [some 3], [some 0], [some 0], [some 0]] := by decide +kernel
theorem test_uvStatusOk : [0x54, 0x55, 0x56, 0xD5].map (fun b => results (changed 3 b) [0x115]) =
    [[some 0], [some 1], [some 0], [some 0]] := by decide +kernel
theorem test_month_hours : [0x00, 0x12, 0x99, 0xFF, 0x3F].map (fun b => results (changed 7 b) [0xD5] ++ results (changed 3 b) [0x95])
    = [[some 0, some 0], [some 12, some 12], [some 19, some 19], [some 25, some 45], [some 25, some 45]] := by decide +kernel
theorem test_field_refused : ran stale 0x155 = some (0xDEADBEEF, 0x5A, 0x62) ∧ ran stale 0x205 = some (0xDEADBEEF, 0x5A, 0x22) := by
  decide +kernel

/-! ### The window: V100 to V112 -/

/-- The last value a one-step read returned. -/
def readOf (s : State) (off : Nat) : Option Word :=
  match step (issue s [.read .word off]) with
  | .next t => t.reads.getLast?
  | _ => none

/-- The state after one word write. -/
def wrote (s : State) (off : Nat) (v : Word) : State := after (step (issue s [.write .word off v]))

theorem test_reset_reads : [0x00, 0x04, 0x08, 0x0C, 0x10].map (readOf State.reset) =
    [some 0, some 0, some 0x0000FF31, some 0, some 0] := by decide +kernel
theorem test_reserved_offsets : readOf (wrote stale 0x14 0xFFFFFFFF) 0x14 = some 0 ∧ readOf stale 0x7C = some 0 ∧
    wrote stale 0x14 0xFFFFFFFF = { stale with served := 1 } := by decide +kernel
theorem test_read_only : wrote stale 0x10 0x1234 = { stale with served := 1 } ∧
    wrote stale 0x04 0xFFFFFFFF = { stale with served := 1 } := by decide +kernel
theorem test_crcCfg_write : readOf (wrote stale 0x08 0xFFFF0000) 0x08 = some 0 ∧ (wrote stale 0x08 0x0000FF31).valid = false ∧
    (wrote stale 0x08 0x0000FF31).poly = 0x31 ∧ (wrote stale 0x08 0x0000FF31).init = 0xFF := by decide +kernel
theorem test_fb_write : readOf (wrote stale 0x40 0x000001FF) 0x40 = some 0xFF ∧ (wrote stale 0x54 0x0A).valid = false ∧
    readOf (wrote stale 0x68 0x77) 0x68 = some 0x77 := by decide +kernel
theorem test_cmd_readback : readOf (wrote frameA 0x00 0x000000A2) 0x00 = some 0x000000A2 ∧
    readOf (wrote frameA 0x00 0x00000006) 0x00 = some 0x00000006 := by decide +kernel
theorem test_port_access : portAccess true 16 0x7F = .write .word 0x40 0x7F ∧ portAccess false 4 0 = .read .word 0x10 ∧
    windowOffset 0x1000 0x107C = some 0x7C ∧ windowOffset 0x1000 0x1080 = none := by decide
theorem test_classifySequence : classifySequence [0xFF, 0x71] =
    [.write .word 0x40 0xFF, .write .word 0x44 0x71, .write .word 0x00 0x3803, .read .word 0x10, .write .word 0x00 0x12,
      .read .word 0x04, .write .word 0x00 0x145, .read .word 0x10] := by decide
/-- An unwritten byte does not end a run: the word reads as a zero-extended byte, whatever it is. -/
theorem test_unwritten_fb_read : readOf State.reset 0x4C = some ((Config.unwrittenFb 1 3).setWidth 32) := rfl

/-! ### Witnesses: for each obligation with hypotheses, concrete terms that meet them together; for one of several clauses, a
witness of each at its boundary -/

/-- A step from `s` answers a next state. -/
def Completes (s : State) : Prop := step s = .next (after (step s))

/-- Frame A's state with one admitted event pending. -/
def one (e : HostEvent) : State := issue frameA [e]

theorem witness_DecodeOfEncodeIsIdentity : (Instr.bfx 127 32).wellFormed = true := by decide
theorem witness_EncodeOfDecodeIsIdentity : decode 0x0000FFF3#32 = .ok (.bfx 127 32) := by rfl
theorem witness_PseudoInstructionsExpand : (10 : Nat) ≤ 10 ∧ ([0x55, 0xAA] : List Byte)[1]? = some 0xAA := by decide
theorem witness_StepRunsDecodedCommand :
    (one (.write .word 0x00 0xA2#32)).pending = .write .word 0x00 0xA2#32 :: [] ∧ decode 0xA2#32 = .ok (.crcCheck 10) :=
  ⟨rfl, rfl⟩
theorem witness_CommandWordIsCheckedAsR81 :
    (one (.write .word 0x00 0xB2#32)).pending = .write .word 0x00 0xB2#32 :: [] ∧ Spec.errorCodeOf 0xB2#32 ≠ 0 ∧
    (one (.write .word 0x00 0xA2#32)).pending = .write .word 0x00 0xA2#32 :: [] ∧ Spec.errorCodeOf 0xA2#32 = 0 := by decide
theorem witness_IdlePortHoldsState : State.reset.pending = [] := rfl
theorem witness_OnlyUnadmittedAccessesStop : Completes (one (.read .word 0x7C)) ∧ (HostEvent.read .word 0x7C).admitted = true ∧
    (HostEvent.read .word 0x80).admitted = false ∧ (HostEvent.write .byte 0x40 0).admitted = false :=
  ⟨rfl, rfl, rfl, rfl⟩
theorem witness_UnadmittedAccessHasNoStep :
    (one (.read .half 0x40)).pending = .read .half 0x40 :: [] ∧ AccessSize.half ≠ .word ∧
    (one (.write .word 0x02 0)).pending = .write .word 0x02 0 :: [] ∧ 0x02 % 4 ≠ 0 ∧
    (one (.read .word 0x80)).pending = .read .word 0x80 :: [] ∧ 0x80 % 4 = 0 ∧ 0x7C < 0x80 := by decide
theorem witness_HostProgramRunsToItsEnd :
    (issue frameA [.write .word 0x00 0xA2#32, .read .word 0x04, .reset]).hostAdmitted := by decide
theorem witness_HostReadReturnsRegisterOnly : ∀ off ∈ [0x00, 0x04, 0x08, 0x0C, 0x10, 0x40 + 4 * 0, 0x40 + 4 * 10],
    (one (.read .word off)).pending = .read .word off :: [] ∧
      (one (.read .word off)).fb[0]? = some (some 0xFF) ∧ (one (.read .word off)).fb[10]? = some (some 0x12) := by decide
theorem witness_UnwrittenFbReadReturnsFreeByte : ∀ i ∈ [0, 10], i ≤ 10 ∧
    (issue State.reset [.read .word (0x40 + 4 * i)]).pending = .read .word (0x40 + 4 * i) :: [] ∧
      (issue State.reset [.read .word (0x40 + 4 * i)]).fbWritten i = false := by decide
theorem witness_ReservedOffsetsReadZeroIgnoreWrites : ∀ off ∈ [0x14, 0x3C, 0x6C, 0x7C], off % 4 = 0 ∧
    (0x14 ≤ off ∧ off ≤ 0x3C ∨ 0x6C ≤ off ∧ off ≤ 0x7C) ∧ (one (.read .word off)).pending = .read .word off :: [] ∧
      (one (.write .word off 0xFFFFFFFF)).pending = .write .word off 0xFFFFFFFF :: [] := by decide
theorem witness_ReadOnlyRegistersIgnoreWrites : ∀ off ∈ [0x04, 0x0C, 0x10], (off = 0x04 ∨ off = 0x0C ∨ off = 0x10) ∧
    (one (.write .word off 0x1234)).pending = .write .word off 0x1234 :: [] := by decide
theorem witness_FbAndCrcCfgWritesClearValid : (∀ i ∈ [(0 : Fin 11), 10],
      (one (.write .word (0x40 + 4 * i) 0x1FF)).pending = .write .word (0x40 + 4 * i) 0x1FF :: []) ∧
    (one (.write .word 0x08 0xFFFF0000)).pending = .write .word 0x08 0xFFFF0000 :: [] := by decide
theorem witness_ReservedBitsReadZero : ∀ off ∈ [0x00, 0x04, 0x08, 0x0C, 0x40, 0x68, 0x7C], off % 4 = 0 ∧ off ≤ 0x7C ∧
    (issue frameA [.write .word off 0xFFFFFFFF, .read .word off]).pending =
      .write .word off 0xFFFFFFFF :: .read .word off :: [] := by decide
theorem witness_ResetLeavesR171 : State.reset = State.reset ∧ (one .reset).pending = .reset :: [] ∧ Completes (one .reset) :=
  ⟨rfl, rfl, rfl⟩
theorem witness_ResetEventCompletes : (one .reset).pending = .reset :: [] := rfl
theorem witness_CrcCalcResult : (0 ≤ 15 ∧ 0 ≤ 11) ∧ (11 ≤ 15 ∧ 11 ≤ 11) ∧ (12 ≤ 15 ∧ 12 ≤ 12) ∧ (15 ≤ 15 ∧ 12 ≤ 15) ∧
    ((0x000001A1#32).toNat % 16 = 1 ∧ (0x000001A1#32).toNat / 2 ^ 8 ≠ 0) := by decide
theorem witness_CrcCheckResult : (0 ≤ 15 ∧ 0 ≤ 10) ∧ (10 ≤ 15 ∧ 10 ≤ 10) ∧ (11 ≤ 15 ∧ 11 ≤ 11) ∧ (15 ≤ 15 ∧ 11 ≤ 15) ∧
    ((0x800000A2#32).toNat % 16 = 2 ∧ (0x800000A2#32).toNat / 2 ^ 8 ≠ 0) := by decide
/-- Two states that differ in everything the statement lets differ: STATUS, results, CMD and the bytes above `FB[7]`. -/
theorem witness_CrcDependsOnCoveredBytesOnly : 7 ≤ 11 ∧ 7 ≤ 10 ∧ frameC.poly = { stale with fb := frameC.fb.set 10 (some 1) }.poly ∧
    frameC.init = { stale with fb := frameC.fb.set 10 (some 1) }.init ∧
    (∀ i, i < 7 → frameC.fbByte i = { stale with fb := frameC.fb.set 10 (some 1) }.fbByte i) ∧
    frameC.fbByte 7 = { stale with fb := frameC.fb.set 10 (some 1) }.fbByte 7 := by decide
/-- The largest covered length, which only CRC.CALC has. -/
theorem witness_CrcDependsOnCoveredBytesOnly_calc11 : 11 ≤ 11 ∧ frameA.poly = stale.poly ∧ frameA.init = stale.init ∧
    (∀ i, i < 11 → frameA.fbByte i = stale.fbByte i) := by decide
/-- `n` = 10 with `i` = 0, n-1 and n, and `k` = 0 and 7 at each. -/
theorem witness_SingleBitFlipIsDetected : exec (.crcCheck 10) frameA = .next (after (exec (.crcCheck 10) frameA)) ∧
    (after (exec (.crcCheck 10) frameA)).valid = true ∧ frameA.poly ≠ 0 ∧ 10 ≤ 10 ∧
    (∀ i ∈ [0, 9], i ≤ 10 ∧ i < 10) ∧ (10 ≤ 10 ∧ 10 = 10) ∧ ∀ k ∈ [0, 7], k < 8 :=
  ⟨rfl, by decide +kernel, by decide, by decide, by decide, by decide, by decide⟩
/-- The smallest length: CRC.CHECK 0 passes on frame A, whose `FB[0]` is INIT, and only `i` = n = 0 is there to flip. -/
theorem witness_SingleBitFlipIsDetected_n0 : exec (.crcCheck 0) frameA = .next (after (exec (.crcCheck 0) frameA)) ∧
    (after (exec (.crcCheck 0) frameA)).valid = true ∧ 0 ≤ 10 ∧ 0 ≤ 0 ∧ ∀ k ∈ [0, 7], k < 8 :=
  ⟨rfl, by decide +kernel, by decide, by decide, by decide⟩
/-- The second clause: with POLY 0 the CRC is 0, and a frame whose `FB[10]` is 0 passes. -/
theorem witness_SingleBitFlipIsDetected_poly0 :
    exec (.crcCheck 10) { changed 10 0 with poly := 0 } = .next (after (exec (.crcCheck 10) { changed 10 0 with poly := 0 })) ∧
    (after (exec (.crcCheck 10) { changed 10 0 with poly := 0 })).valid = true ∧ { changed 10 0 with poly := 0 }.poly = 0 ∧
    1 ≤ 10 ∧ (∀ i ∈ [0, 9], i ≤ 10 ∧ i < 10) ∧ ∀ k ∈ [0, 7], k < 8 :=
  ⟨rfl, by decide +kernel, rfl, by decide, by decide, by decide⟩
theorem witness_CrcIsPolynomialRemainder : 0 ≤ 11 ∧ 11 ≤ 11 := by decide
theorem witness_CrcOverOwnTrailerIsZero : 10 ≤ 10 ∧
    exec (.crcCalc 10) frameA = .next (after (exec (.crcCalc 10) frameA)) ∧
    frameA.fbByte 10 = (after (exec (.crcCalc 10) frameA)).crcv ∧
    exec (.crcCalc (10 + 1)) frameA = .next (after (exec (.crcCalc (10 + 1)) frameA)) :=
  ⟨by decide, rfl, by decide +kernel, rfl⟩
theorem witness_CalculatedTrailerPassesCheck : (changed 10 0x13).fbWrittenBelow 10 ∧
    0x12#8 = BitVec.ofNat 8 (Spec.crcOfFb (changed 10 0x13) 10) ∧
    (issue (changed 10 0x13) [commandLine (.crcCalc 10), writeFbLine 10 0x12, commandLine (.crcCheck 10)]).pending =
      commandLine (.crcCalc 10) :: writeFbLine 10 0x12 :: commandLine (.crcCheck 10) :: [] :=
  ⟨by decide, by decide +kernel, rfl⟩
theorem witness_BfxResult : (56 ≤ 127 ∧ 1 ≤ 32 ∧ 32 ≤ 32 ∧ 56 + 32 ≤ 88) ∧ (87 ≤ 127 ∧ 87 + 1 ≤ 88) ∧
    (57 ≤ 127 ∧ 88 < 57 + 32) ∧ (127 ≤ 127 ∧ 88 < 127 + 1) ∧
    ((0x00013803#32).toNat % 16 = 3 ∧ (0x00013803#32).toNat / 2 ^ 16 ≠ 0) := by decide
/-- `BFX 12, 8` reads FB[1] and FB[2]; the two states differ in FB[0] and FB[3]. -/
theorem witness_BfxReadsOnlyItsBytes : 12 + 8 ≤ 88 ∧ (∀ i, i < 3 → 12 / 8 ≤ i → i ≤ (12 + 8 - 1) / 8 →
    frameA.fbByte i = { changed 0 0x00 with fb := (changed 0 0x00).fb.setIfInBounds 3 (some 0x11) }.fbByte i) ∧
    (12 + 8 - 1) / 8 < 3 := by decide
/-- The second way: the two states differ in the high nibble of FB[1], outside the field. -/
theorem witness_BfxReadsOnlyItsBits : 12 + 8 ≤ 88 ∧ (∀ q, q < 20 → 12 ≤ q → q < 12 + 8 →
    Spec.frameBit frameA q = Spec.frameBit (changed 1 0xF1) q) := by decide
theorem witness_BcdResult : (10 ≤ 15 ∧ 1 ≤ 4 ∧ 4 ≤ 4 ∧ 10 ≤ 10) ∧ (11 ≤ 15 ∧ 11 ≤ 11) ∧ (15 ≤ 15 ∧ 11 ≤ 15) ∧
    ((0x00000534#32).toNat % 16 = 4 ∧ (0x00000534#32).toNat / 2 ^ 10 ≠ 0) := by decide
theorem witness_EightByteFrameIgnoresUpperBytes : frameC.poly = { frameC with fb := frameC.fb.set 8 (some 0xEE) }.poly ∧
    frameC.init = { frameC with fb := frameC.fb.set 8 (some 0xEE) }.init ∧
    (∀ k, k ≤ 7 → frameC.fbByte k = { frameC with fb := frameC.fb.set 8 (some 0xEE) }.fbByte k) ∧
    Instr.crcCheck 7 ∈ [Instr.crcCheck 7, .fieldUvSensorId, .fieldUvStatusOk, .fieldUvIndex, .fieldLightRaw, .fieldMsgType] ∧
    Instr.fieldLightRaw ∈ [Instr.crcCheck 7, .fieldUvSensorId, .fieldUvStatusOk, .fieldUvIndex, .fieldLightRaw, .fieldMsgType] := by
  decide
theorem witness_CommandsChangeNoInput : operandError (.crcCheck 10) = none ∧ operandError (.crcCheck 11) ≠ none := by decide
theorem witness_CommandsLeaveOtherResults : exec (.crcCalc 10) frameA = .next (after (exec (.crcCalc 10) frameA)) ∧
    exec .fieldRain frameA = .next (after (exec .fieldRain frameA)) ∧ (after (exec .fieldRain frameA)).err = false :=
  ⟨rfl, rfl, rfl⟩
/-- For ValidHasNoOtherWriters, ErrHasNoOtherWriters, CrcValueHasNoOtherWriters, ResultHasNoOtherWriters and
InputsHaveNoOtherWriters: each kind of event, and every case of a write's offset and of a CMD word. -/
theorem witness_NoOtherWriters : ∀ e ∈ [HostEvent.reset, .read .word 0x10, .write .word 0x00 0xA2#32, .write .word 0x00 0xB2#32,
    .write .word 0x00 0xA1#32, .write .word 0x00 0x65#32, .write .word 0x08 0#32, .write .word 0x40 0#32,
    .write .word 0x68 0#32, .write .word 0x3C 0#32, .write .word 0x6C 0#32],
    (one e).pending = e :: [] ∧ Completes (one e) := by
  intro e he
  simp only [List.mem_cons, List.not_mem_nil, or_false] at he
  rcases he with rfl | rfl | rfl | rfl | rfl | rfl | rfl | rfl | rfl | rfl | rfl <;> exact ⟨rfl, rfl⟩
/-- RESULT does change: the premise of ResultHasNoOtherWriters. -/
theorem witness_ResultHasNoOtherWriters : (after (step (one (.write .word 0x00 0x65#32)))).result ≠
    (one (.write .word 0x00 0x65#32)).result := by decide +kernel
/-- The two bus events of SameCommandTwiceIsIdempotent from `s`, both of which complete. -/
def Twice (s : State) (w : Word) : Prop :=
  (issue s [.write .word 0x00 w, .write .word 0x00 w]).pending = .write .word 0x00 w :: .write .word 0x00 w :: [] ∧
  Completes (issue s [.write .word 0x00 w, .write .word 0x00 w]) ∧
  Completes (after (step (issue s [.write .word 0x00 w, .write .word 0x00 w])))

/-- A word's premise, from the command it decodes to. -/
theorem readsWritten_of_decode {s : State} {w : Word} {i : Instr} (h : decode w = .ok i)
    (hw : ∀ k ∈ readSet i, s.fbWritten k = true) : s.readsWritten w := by
  intro j hj _
  rw [h] at hj
  cases hj
  exact hw

/-- An 8-byte frame, FB[8..10] not written: CRC.CHECK 7, a UvLight field, and a BFX that ends at FB[7]. -/
theorem witness_SameCommandTwiceIsIdempotent : (frameC.readsWritten 0x72#32 ∧ Twice frameC 0x72#32) ∧
    (frameC.readsWritten 0x135#32 ∧ Twice frameC 0x135#32) ∧ (frameC.readsWritten 0x3B83#32 ∧ Twice frameC 0x3B83#32) :=
  ⟨⟨readsWritten_of_decode (i := .crcCheck 7) rfl (by decide), rfl, rfl, rfl⟩,
    ⟨readsWritten_of_decode (i := .fieldLightRaw) rfl (by decide), rfl, rfl, rfl⟩,
    ⟨readsWritten_of_decode (i := .bfx 56 8) rfl (by decide), rfl, rfl, rfl⟩⟩
/-- Nothing written at all: CRC.CALC 0 reads no byte, 0xFB93 (BFX_RANGE) and 0x06 (ILLEGAL_OP) are refused. -/
theorem witness_SameCommandTwiceIsIdempotent_unwritten : (State.reset.readsWritten 0x01#32 ∧ Twice State.reset 0x01#32) ∧
    (State.reset.readsWritten 0xFB93#32 ∧ Twice State.reset 0xFB93#32) ∧
    (State.reset.readsWritten 0x06#32 ∧ Twice State.reset 0x06#32) := by
  refine ⟨⟨readsWritten_of_decode (i := .crcCalc 0) rfl (by decide), rfl, rfl, rfl⟩, ⟨fun i h ho => ?_, rfl, rfl, rfl⟩,
    ⟨fun i h => ?_, rfl, rfl, rfl⟩⟩
  · rw [show decode 0xFB93#32 = .ok (.bfx 57 32) from rfl] at h
    cases h
    cases ho
  · cases h
/-- A refused command from a state with VALID 1. -/
theorem witness_StepKeepsStatusConsistent : (issue stale [.write .word 0x00 0xB2#32]).statusConsistent ∧
    Completes (issue stale [.write .word 0x00 0xB2#32]) := ⟨by decide, rfl⟩
theorem witness_StepKeepsStatusDescribingCmd :
    (issue { frameA with cmd := 0xB2, err := true, errcode := 3 } [.write .word 0x00 0xA2#32]).statusDescribesCmd ∧
    Completes (issue { frameA with cmd := 0xB2, err := true, errcode := 3 } [.write .word 0x00 0xA2#32]) := ⟨by decide, rfl⟩
/-- Frame A after its check, with VALID 1: `n` = 10 is the covered length, and `CRC.CALC 10` is pending. -/
def checkedA : State := issue { frameA with valid := true } [.write .word 0x00 0xA1#32]

theorem witness_StepKeepsValidTruthful : 10 ≤ 10 ∧ Completes checkedA ∧ Spec.ValidDescribes 10 checkedA ∧
    (∀ w rest m, checkedA.pending = .write .word 0x00 w :: rest → decode w = .ok (.crcCheck m) → m ≤ 10 → m = 10) ∧
    (after (step checkedA)).valid = true ∧ (after (step checkedA)).fbWrittenBelow 11 := by
  refine ⟨by decide, rfl, fun _ _ => by decide +kernel, fun w rest m h hd => ?_, by decide +kernel, by decide⟩
  cases h
  cases hd

/-- The other way into the premise, at the smallest length and on an 8-byte frame: the step completes the CRC.CHECK itself. -/
theorem witness_StepKeepsValidTruthful_check : ∀ n ∈ [0, 7], n ≤ 10 ∧
    (∃ w rest, (issue frameC [commandLine (.crcCheck n)]).pending = .write .word 0x00 w :: rest ∧
      decode w = .ok (.crcCheck n) ∧
      ∀ w' rest' m, (issue frameC [commandLine (.crcCheck n)]).pending = .write .word 0x00 w' :: rest' →
        decode w' = .ok (.crcCheck m) → m ≤ 10 → m = n) ∧
    Completes (issue frameC [commandLine (.crcCheck n)]) ∧
    (after (step (issue frameC [commandLine (.crcCheck n)]))).valid = true ∧ frameC.fbWrittenBelow (n + 1) := by
  intro n hn
  simp only [List.mem_cons, List.not_mem_nil, or_false] at hn
  rcases hn with rfl | rfl <;>
    (refine ⟨by decide, ⟨_, _, rfl, rfl, fun w' rest' m h hd _ => ?_⟩, rfl, by decide +kernel, by decide⟩
     cases h
     cases hd
     rfl)

end Sys2Proof.Tests
end

/-! SUPPORT. What a step does, in the terms of the statements of 10_state.md: the error code of a word and the CRC over FB in
plain arithmetic (`Sys2Proof.Spec`), and one step inverted by the bus event it serves. -/

namespace Sys2Proof

open Machine

/-! ### The command word in plain arithmetic -/

/-- R72: a word decodes only to a command of its own OP. -/
theorem opNibble_of_decode {w : Word} {i : Instr} (h : decode w = .ok i) : opNibble i = w.toNat % 16 := by
  have hfield : ∀ n, fieldOfSelect n = some i → opNibble i = 5 := by
    intro n hn
    have hle := (fieldOfSelect_eq_some hn).1
    interval_cases n <;> cases hn <;> rfl
  rw [decode_arith] at h
  simp only at h
  split_ifs at h with h1 _ h2 _ h3 _ h4 _ h5 _
  · cases h; exact h1.symm
  · cases h; exact h2.symm
  · cases h; exact h3.symm
  · cases h; exact h4.symm
  · split at h
    · next hsel => cases h; rw [hfield _ hsel, h5]
    · cases h

/-- R73: the covered length of a CRC.CALC word is its bits 7:4. -/
theorem crcCalc_of_decode {w : Word} {n : Nat} (h : decode w = .ok (.crcCalc n)) :
    w.toNat % 16 = 1 ∧ w.toNat / 16 % 16 = n := by
  have hop : w.toNat % 16 = 1 := (opNibble_of_decode h).symm
  rw [decode_arith] at h
  simp only [hop, if_true] at h
  split at h <;> cases h
  exact ⟨hop, rfl⟩

/-- R73: the covered length of a CRC.CHECK word is its bits 7:4. -/
theorem crcCheck_of_decode {w : Word} {n : Nat} (h : decode w = .ok (.crcCheck n)) :
    w.toNat % 16 = 2 ∧ w.toNat / 16 % 16 = n := by
  have hop : w.toNat % 16 = 2 := (opNibble_of_decode h).symm
  rw [decode_arith] at h
  simp only [hop, OfNat.ofNat_ne_one, if_false, if_true] at h
  split at h <;> cases h
  exact ⟨hop, rfl⟩

/-- R72: a word that decodes to another command has OP 3, 4 or 5. -/
theorem op_of_decode_not_crc {w : Word} {i : Instr} (h : decode w = .ok i)
    (hi : ∀ n, i ≠ .crcCalc n ∧ i ≠ .crcCheck n) : 3 ≤ w.toNat % 16 ∧ w.toNat % 16 ≤ 5 := by
  rw [← opNibble_of_decode h]
  cases i with
  | crcCalc n => exact absurd rfl (hi n).1
  | crcCheck n => exact absurd rfl (hi n).2
  | _ => simp [opNibble]

/-- R81, R150: the error code that the checks give a word is the one worked out by division and remainder. -/
theorem errorCodeOf_eq_commandErrorCode (w : Word) : Spec.errorCodeOf w = (commandErrorCode w).toNat := by
  simp only [commandErrorCode, commandError, decode_arith, Spec.errorCodeOf]
  generalize w.toNat = x
  have hops : (x % 16 = 0 ∨ 5 < x % 16) ∨ x % 16 = 1 ∨ x % 16 = 2 ∨ x % 16 = 3 ∨ x % 16 = 4 ∨ x % 16 = 5 := by omega
  rcases hops with hop | hop | hop | hop | hop | hop
  · rw [if_pos hop]
    simp (disch := omega) only [if_neg]
    rfl
  · by_cases hr : 256 ≤ x
    · simp [hop, hr, errorCode]
    · by_cases hn : 11 < x / 16 % 16 <;> simp [hop, hr, hn, operandError, crcCalcOperandError, errorCode]
  · by_cases hr : 256 ≤ x
    · simp [hop, hr, errorCode]
    · by_cases hn : 10 < x / 16 % 16 <;> simp [hop, hr, hn, operandError, crcCheckOperandError, errorCode]
  · by_cases hr : 65536 ≤ x
    · simp [hop, hr, errorCode]
    · by_cases hn : 88 < x / 16 % 128 + (x / 2048 % 32 + 1) <;>
        simp [hop, hr, hn, operandError, bfxOperandError, errorCode, Nat.add_assoc]
  · by_cases hr : 1024 ≤ x
    · simp [hop, hr, errorCode]
    · by_cases hn : 10 < x / 16 % 16 <;> simp [hop, hr, hn, operandError, bcdOperandError, errorCode]
  · by_cases hr : 512 ≤ x
    · simp [hop, hr, errorCode]
    · rcases hs : fieldOfSelect (x / 16 % 32) with _ | i
      · have hn := (fieldOfSelect_eq_none _).1 hs
        simp [hop, hr, hn, errorCode]
      · obtain ⟨hn, -, -, ho⟩ := fieldOfSelect_eq_some hs
        simp [hop, hr, ho, show ¬ 20 < x / 16 % 32 by omega]

/-- R81: a word executes exactly when its code is 0. -/
theorem errorCodeOf_eq_zero_iff (w : Word) : Spec.errorCodeOf w = 0 ↔ commandError w = none := by
  rw [errorCodeOf_eq_commandErrorCode, commandErrorCode]
  rcases commandError w with _ | e
  · simp
  · cases e <;> simp [errorCode]

/-! ### The CRC in plain arithmetic -/

/-- R100's inner step on numbers is that on bytes. -/
theorem crcBit_toNat (poly c : Byte) : Spec.crcBit poly.toNat c.toNat = (crcShift poly c).toNat := by
  have hmsb : c.getLsbD 7 = decide (128 ≤ c.toNat) := BitVec.msb_eq_decide c
  have hshl : (c <<< 1).toNat = 2 * c.toNat % 256 := by simp [Nat.shiftLeft_eq, Nat.mul_comm]
  unfold Spec.crcBit crcShift
  by_cases h : 128 ≤ c.toNat
  · simp [hmsb, h, hshl, -BitVec.toNat_shiftLeft]
  · simp only [hmsb, h, decide_false, if_false, Bool.false_eq_true, hshl]
    omega

/-- So are `k` of them. -/
theorem crcBit_iterate_toNat (poly : Byte) (k : Nat) (c : Byte) :
    (Spec.crcBit poly.toNat)^[k] c.toNat = (crcShifts poly k c).toNat := by
  induction k generalizing c with
  | zero => rfl
  | succ k ih => rw [Function.iterate_succ_apply, crcBit_toNat, ih, crcShifts]

/-- R100's algorithm on numbers is that on bytes. -/
theorem crcLoop_toNat (poly init : Byte) (bytes : List Byte) :
    Spec.crcLoop poly.toNat init.toNat (bytes.map BitVec.toNat) = (crc8 poly init bytes).toNat := by
  unfold Spec.crcLoop crc8
  induction bytes generalizing init with
  | nil => rfl
  | cons b bs ih =>
    rw [List.map_cons, List.foldl_cons, List.foldl_cons, ← BitVec.toNat_xor, crcBit_iterate_toNat]
    exact ih _

/-- R100 over `FB[0..n-1]`. -/
theorem crcOfFb_eq (s : State) (n : Nat) : Spec.crcOfFb s n = (s.crcOf n).toNat := by
  rw [State.crcOf, ← crcLoop_toNat, State.fbBytes, List.map_map]
  rfl

namespace Machine

/-- R103: the comparison with the trailer, on numbers. -/
theorem validFlag_eq (s : State) (n : Nat) :
    validFlag (s.crcOf n) (s.fbByte n) = decide (Spec.crcOfFb s n = (s.fbByte n).toNat) := by
  rw [crcOfFb_eq, validFlag, Bool.eq_iff_iff]
  simp [BitVec.toNat_inj]

/-! ### Bytes of a word -/

/-- Bits 7:0 as a remainder. -/
theorem setWidth_eight_eq (v : Word) : v.setWidth 8 = BitVec.ofNat 8 (v.toNat % 256) := by
  apply BitVec.eq_of_toNat_eq
  simp

/-- POLY's bits 7:0 as a remainder. -/
theorem extractLsb'_zero_eq (v : Word) : v.extractLsb' 0 8 = BitVec.ofNat 8 (v.toNat % 256) := by
  apply BitVec.eq_of_toNat_eq
  simp

/-- INIT's bits 15:8 by division and remainder. -/
theorem extractLsb'_eight_eq (v : Word) : v.extractLsb' 8 8 = BitVec.ofNat 8 (v.toNat / 256 % 256) := by
  apply BitVec.eq_of_toNat_eq
  simp [Nat.shiftRight_eq_div_pow]

/-- A write to FBi stores bits 7:0 at index `i`. -/
theorem writeFb_fb_eq_set (s : State) (i : Fin 11) (v : Word) :
    (s.writeFb i v).fb = s.fb.set i (some (BitVec.ofNat 8 (v.toNat % 256))) := by
  rw [writeFb_fb, setWidth_eight_eq]
  ext j hj
  rw [Vector.getElem_setIfInBounds, Vector.getElem_set]

/-- U1: a byte not written since reset reads as the free value of the access (log entry 1). -/
theorem fbByte_of_not_written {s : State} {i : Nat} (h : s.fbWritten i = false) :
    s.fbByte i = Config.unwrittenFb s.served i := by
  unfold State.fbWritten at h
  unfold State.fbByte
  rcases hb : s.fb[i]? with _ | _ | b
  · rfl
  · rfl
  · simp [hb] at h

/-! ### Executing a command -/

/-- Every command completes. -/
theorem exec_next (i : Instr) (s : State) : ∃ t, exec i s = .next t := by
  rcases exec_cases i s with ⟨e, -, h⟩ | ⟨n, -, -, h⟩ | ⟨n, -, -, h⟩ | ⟨-, -, v, h⟩ <;> exact ⟨_, h⟩

/-- What executing the word `w` makes of the state `a`: refused with R81's error, or the writes of the command it
decodes to. -/
inductive Executes (w : Word) (a : State) : State → Prop where
  | refused (e : CmdError) (herr : Spec.errorCodeOf w ≠ 0) (he : commandError w = some e) : Executes w a (a.withError e)
  | crcCalc (n : Nat) (herr : Spec.errorCodeOf w = 0) (hd : decode w = .ok (.crcCalc n)) (hn : n ≤ 11) :
    Executes w a (a.writeCrcValue (a.crcOf n)).withoutError
  | crcCheck (n : Nat) (herr : Spec.errorCodeOf w = 0) (hd : decode w = .ok (.crcCheck n)) (hn : n ≤ 10) :
    Executes w a ((a.writeCrcValue (a.crcOf n)).writeValid (validFlag (a.crcOf n) (a.fbByte n))).withoutError
  | extract (i : Instr) (v : Word) (herr : Spec.errorCodeOf w = 0) (hd : decode w = .ok i)
    (hi : ∀ n, i ≠ .crcCalc n ∧ i ≠ .crcCheck n) : Executes w a (a.writeResult v).withoutError

/-- Executing a word is one of those. -/
theorem executes_of_executeWord {w : Word} {a t : State} (h : executeWord w a = .next t) : Executes w a t := by
  rcases executeWord_cases w a with ⟨e, he, h'⟩ | ⟨i, he, hd, h'⟩ <;> rw [h'] at h
  · cases h
    exact .refused e (by simp [errorCodeOf_eq_zero_iff, he]) he
  · have herr := (errorCodeOf_eq_zero_iff w).2 he
    rcases exec_cases i a with ⟨e, ho, h'⟩ | ⟨n, rfl, hn, h'⟩ | ⟨n, rfl, hn, h'⟩ | ⟨hi, -, v, h'⟩
    · simp [commandError, hd, ho] at he
    · rw [h'] at h; cases h; exact .crcCalc n herr hd hn
    · rw [h'] at h; cases h; exact .crcCheck n herr hd hn
    · rw [h'] at h; cases h; exact .extract i v herr hd hi

/-! ### Serving an event -/

/-- R51: an aligned offset is CMD's, CRC_CFG's, one of FB, or that of a register no write changes. -/
theorem alignedOffset_cases {off : Nat} (h4 : off % 4 = 0) :
    off = 0x00 ∨ off = 0x08 ∨ (∃ i, i < 11 ∧ off = 0x40 + 4 * i) ∨
    (off ≠ 0x00 ∧ off ≠ 0x08 ∧ ¬ (0x40 ≤ off ∧ off ≤ 0x68)) := by
  by_cases hfb : 0x40 ≤ off ∧ off ≤ 0x68
  · exact .inr (.inr (.inl ⟨(off - 0x40) / 4, by omega, by omega⟩))
  · omega

/-- R54, R55: a write to any other offset than CMD's, CRC_CFG's and those of FB is ignored. -/
theorem writeReg_ignored {off : Nat} (v : Word) (s : State) (h0 : off ≠ 0x00) (h8 : off ≠ 0x08)
    (hfb : ¬ (0x40 ≤ off ∧ off ≤ 0x68)) : writeReg (regAt off) v s = .next s := by
  unfold regAt
  rw [if_neg h0, if_neg h8, if_neg hfb]
  split_ifs <;> rfl

/-- What serving an event makes of the state `a` it is served in, which is the one with the event off the queue and
counted (R57, R60). -/
inductive Serves (a : State) : HostEvent → State → Prop where
  | reset : Serves a .reset a.afterReset
  | read (off : Nat) : Serves a (.read .word off) (a.returnRead (a.readReg (regAt off)))
  | command (w : Word) {t : State} (h : executeWord w (a.writeCmd w) = .next t) : Serves a (.write .word 0x00 w) t
  | crcCfg (v : Word) : Serves a (.write .word 0x08 v) (a.writeCrcCfg v)
  | fb (i : Nat) (v : Word) (hi : i < 11) : Serves a (.write .word (0x40 + 4 * i) v) (a.writeFb i v)
  | ignored (off : Nat) (v : Word) (h0 : off ≠ 0x00) (h8 : off ≠ 0x08) (hfb : ¬ (0x40 ≤ off ∧ off ≤ 0x68)) :
    Serves a (.write .word off v) a

/-- A step that answers a next state with an event pending serves it. -/
theorem serves_of_step {s t : State} {e : HostEvent} {rest : List HostEvent} (hp : s.pending = e :: rest)
    (h : step s = .next t) : Serves (s.accept rest) e t := by
  rcases step_cases h with ⟨hp', -⟩ | ⟨_, hp', rfl⟩ | ⟨off, _, hp', -, -, rfl⟩ | ⟨off, v, _, hp', h4, -, hw⟩ <;>
    (rw [hp] at hp'; cases hp')
  · exact .reset
  · exact .read off
  · rcases alignedOffset_cases h4 with rfl | rfl | ⟨i, hi, rfl⟩ | ⟨h0, h8, hfb⟩
    · exact .command v hw
    · cases hw; exact .crcCfg v
    · rw [regAt_fb i hi] at hw; cases hw; exact .fb i v hi
    · rw [writeReg_ignored v _ h0 h8 hfb] at hw; cases hw; exact .ignored off v h0 h8 hfb

/-- A property of `s` is one of `t` when serving the event pending in `s`, if there is one, gives it. -/
theorem step_keeps {P : State → Prop} {s t : State} (hs : P s) (h : step s = .next t)
    (hserve : ∀ e rest, s.pending = e :: rest → Serves (s.accept rest) e t → P t) : P t := by
  rcases hp : s.pending with _ | ⟨e, rest⟩
  · rw [step_idle hp] at h
    cases h
    exact hs
  · exact hserve e rest hp (serves_of_step hp h)

/-! ### The invariants -/

/-- R150: the codes of the command errors are 1 to 6. -/
theorem errorCode_range (e : CmdError) : errorCode e ≠ 0#4 ∧ (errorCode e).toNat ≤ 6 := by
  cases e <;> decide

/-- Consistency of STATUS depends on STATUS only, and clearing VALID keeps it. -/
theorem statusConsistent_of_status {s t : State} (hs : s.statusConsistent) (he : t.err = s.err)
    (hc : t.errcode = s.errcode) (hv : t.valid = true → s.valid = true) : t.statusConsistent := by
  obtain ⟨hiff, hle, hvalid⟩ := hs
  refine ⟨by rw [he, hc]; exact hiff, by rw [hc]; exact hle, fun h => Bool.eq_false_iff.2 fun ht => ?_⟩
  exact Bool.false_ne_true ((hvalid (he ▸ h)).symm.trans (hv ht))

/-- Executing a word leaves STATUS consistent, whatever it was. -/
theorem statusConsistent_of_executeWord {w : Word} {s t : State} (h : executeWord w s = .next t) :
    t.statusConsistent := by
  rcases executeWord_status h with ⟨e, -, rfl⟩ | ⟨-, herr, hcode⟩
  · obtain ⟨hne, hle⟩ := errorCode_range e
    exact ⟨by simp [hne], hle, fun _ => rfl⟩
  · simp [State.statusConsistent, herr, hcode]

/-- Executing a word leaves its error code in ERRCODE. -/
theorem errcode_of_executeWord {w : Word} {s t : State} (h : executeWord w s = .next t) :
    t.errcode = commandErrorCode w := by
  unfold commandErrorCode
  rcases executeWord_status h with ⟨e, he, rfl⟩ | ⟨he, -, hcode⟩ <;> rw [he]
  · rfl
  · exact hcode

/-- Executing a word sets ERR exactly when the word has an error code. -/
theorem err_of_executeWord {w : Word} {s t : State} (h : executeWord w s = .next t) :
    t.err = decide (Spec.errorCodeOf w ≠ 0) := by
  rcases executeWord_status h with ⟨e, he, rfl⟩ | ⟨he, herr, -⟩
  · simp [errorCodeOf_eq_zero_iff, he]
  · simp [errorCodeOf_eq_zero_iff, he, herr]

/-- A state in which VALID is 0 describes every length. -/
theorem validDescribes_of_invalid {n : Nat} {s : State} (h : s.valid = false) : Spec.ValidDescribes n s := by
  intro hv
  rw [h] at hv
  cases hv

/-- What VALID describes depends on VALID, FB, POLY and INIT only. -/
theorem validDescribes_congr {n : Nat} {s t : State} (hs : Spec.ValidDescribes n s) (hv : t.valid = s.valid)
    (hfb : t.fb = s.fb) (hp : t.poly = s.poly) (hi : t.init = s.init) : Spec.ValidDescribes n t := by
  intro hvalid hwritten
  have hw : s.fbWrittenBelow (n + 1) := fun i hlt => by
    simpa only [State.fbWritten, hfb] using hwritten i hlt
  have hb : ∀ i, i < n + 1 → t.fbByte i = s.fbByte i := fun i hlt => fbByte_of_written hfb (hw i hlt)
  rw [crcOfFb_eq, crcOf_congr hp hi fun i hlt => hb i (by omega), ← crcOfFb_eq, hb n (by omega)]
  exact hs (hv ▸ hvalid) hw

/-- R103: a CRC.CHECK that completes leaves VALID describing its own length. -/
theorem validDescribes_of_crcCheck (n : Nat) (a : State) : Spec.ValidDescribes n
    ((a.writeCrcValue (a.crcOf n)).writeValid (validFlag (a.crcOf n) (a.fbByte n))).withoutError := by
  intro hv _
  rw [withoutError_valid, writeValid_valid, validFlag_eq] at hv
  exact of_decide_eq_true hv

end Machine

/-! ### The obligations -/

/-- Settles O45: a command writes a consistent STATUS, and any other event clears it, clears VALID or leaves it. -/
theorem stepKeepsStatusConsistent : Obligations.StepKeepsStatusConsistent := by
  intro s t hs h
  refine step_keeps hs h fun e rest _ hserve => ?_
  cases hserve with
  | reset => exact (by decide : State.reset.statusConsistent)
  | read off => exact statusConsistent_of_status hs rfl rfl id
  | command w hw => exact statusConsistent_of_executeWord hw
  | crcCfg v => exact statusConsistent_of_status hs rfl rfl nofun
  | fb i v hi => exact statusConsistent_of_status hs rfl rfl nofun
  | ignored off v => exact statusConsistent_of_status hs rfl rfl id

/-- Settles O46: only a command and reset write CMD or ERRCODE, and each writes both. -/
theorem stepKeepsStatusDescribingCmd : Obligations.StepKeepsStatusDescribingCmd := by
  intro s t hs h
  refine step_keeps hs h fun e rest _ hserve => ?_
  cases hserve with
  | reset => exact .inr ⟨rfl, rfl⟩
  | command w hw =>
    obtain ⟨hcmd, -⟩ := executeWord_keeps hw
    left
    rw [errcode_of_executeWord hw, hcmd, writeCmd_cmd]
  | read off => exact hs
  | crcCfg v => exact hs
  | fb i v hi => exact hs
  | ignored off v => exact hs

/-- Settles O47: the writers of FB, POLY and INIT clear VALID, and the one command that sets VALID compares the CRC over
FB and CRC_CFG as they are. -/
theorem stepKeepsValidTruthful : Obligations.StepKeepsValidTruthful := by
  intro n s t _ h hs hother
  rcases hp : s.pending with _ | ⟨e, rest⟩
  · rw [step_idle hp] at h
    cases h
    exact hs.resolve_right (by simp [hp])
  · have hkeep : (∀ w, e = .write .word 0x00 w → decode w ≠ .ok (.crcCheck n)) → t.valid = s.valid → t.fb = s.fb →
        t.poly = s.poly → t.init = s.init → Spec.ValidDescribes n t := by
      intro hne
      refine validDescribes_congr (hs.resolve_right ?_)
      rintro ⟨w, _, hw, hd⟩
      rw [hp] at hw
      cases hw
      exact hne w rfl hd
    cases serves_of_step hp h with
    | reset => exact validDescribes_of_invalid rfl
    | read off => exact hkeep nofun rfl rfl rfl rfl
    | crcCfg v => exact validDescribes_of_invalid rfl
    | fb i v hi => exact validDescribes_of_invalid rfl
    | ignored off v h0 => exact hkeep (fun w hw => by cases hw; exact absurd rfl h0) rfl rfl rfl rfl
    | command w hw =>
      cases executes_of_executeWord hw with
      | refused e herr => exact validDescribes_of_invalid rfl
      | crcCalc m herr hd => exact hkeep (fun w hw => by cases hw; simp [hd]) rfl rfl rfl rfl
      | extract i v herr hd hi =>
        exact hkeep (fun w hw => by cases hw; simp [hd, (hi n).2]) rfl rfl rfl rfl
      | crcCheck m herr hd hm =>
        obtain rfl := hother w rest m hp hd hm
        exact validDescribes_of_crcCheck m _

/-- Settles O15: both offsets name a register of their own, and its write makes exactly these changes. -/
theorem fbAndCrcCfgWritesClearValid : Obligations.FbAndCrcCfgWritesClearValid := by
  refine fun s v rest => ⟨fun i hp => ?_, fun hp => ?_⟩
  · rw [step_event hp, serveEvent_write v _ (by omega) (by omega), regAt_fb i i.isLt, writeReg,
      ← writeFb_fb_eq_set]
    rfl
  · rw [step_event hp, serveEvent_write v _ (by decide) (by decide), show regAt 0x08 = .crcCfg from rfl, writeReg,
      State.writeCrcCfg, extractLsb'_zero_eq, extractLsb'_eight_eq]
    rfl

/-- Settles O34: each of these commands reads bytes of `FB[0..7]` only. -/
theorem eightByteFrameIgnoresUpperBytes : Obligations.EightByteFrameIgnoresUpperBytes := by
  intro i s s' hp hi hb hmem
  have hbfx : ∀ p w, 1 ≤ w → p + w ≤ 64 → s.bfx p w = s'.bfx p w := fun p w _ _ =>
    bfx_congr (by omega) fun k _ _ => hb k (by omega)
  simp only [List.mem_cons, List.not_mem_nil, or_false] at hmem
  rcases hmem with rfl | rfl | rfl | rfl | rfl | rfl
  · refine ⟨_, _, exec_crcCheck s (by decide), exec_crcCheck s' (by decide), fun _ => ?_, fun h => absurd rfl h⟩
    have hcrc : s.crcOf 7 = s'.crcOf 7 := crcOf_congr hp hi fun k hk => hb k (by omega)
    simp [hcrc, hb 7 (by decide)]
  · exact ⟨_, _, rfl, rfl, nofun, fun _ => congrArg natResult (hbfx 12 8 (by decide) (by decide))⟩
  · exact ⟨_, _, rfl, rfl, nofun, fun _ => congrArg (boolResult <| · == 85) (hbfx 24 8 (by decide) (by decide))⟩
  · exact ⟨_, _, rfl, rfl, nofun, fun _ => congrArg natResult (hbfx 20 4 (by decide) (by decide))⟩
  · exact ⟨_, _, rfl, rfl, nofun, fun _ => congrArg natResult (hbfx 32 24 (by decide) (by decide))⟩
  · exact ⟨_, _, rfl, rfl, nofun, fun _ => congrArg (natResult <| messageCode ·) (hbfx 8 4 (by decide) (by decide))⟩

/-- Settles O35: a command either raises its operand error or completes with writes to its results only. -/
theorem commandsChangeNoInput : Obligations.CommandsChangeNoInput := by
  intro i s
  obtain ⟨t, ht⟩ := exec_next i s
  obtain ⟨hcmd, hpoly, hinit, hfb, hpending, hreads, hserved⟩ := exec_keeps ht
  refine ⟨t, ht, hcmd, hpoly, hinit, hfb, fbByte_congr hfb hserved, hpending, hreads, hserved, ?_⟩
  rcases exec_status ht with ⟨e, he, rfl⟩ | ⟨hnone, hstatus⟩
  · exact ⟨fun h => by simp [he] at h, fun _ => ⟨rfl, rfl, rfl, rfl⟩⟩
  · exact ⟨fun _ => hstatus, fun h => absurd hnone h⟩

/-- Settles O38: of the events that complete, a CMD write writes VALID as its word's error and OP say, and a write to
CRC_CFG or FB clears it. -/
theorem validHasNoOtherWriters : Obligations.ValidHasNoOtherWriters := by
  intro s t e rest hp h
  cases serves_of_step hp h with
  | reset => rfl
  | read off => rfl
  | crcCfg v => rfl
  | fb i v hi => exact ((if_neg (by omega)).trans (if_pos (by omega))).symm
  | ignored off v h0 h8 hfb => exact ((if_neg h0).trans (if_neg (by omega))).symm
  | command w hw =>
    cases executes_of_executeWord hw with
    | refused e herr => simp [herr]
    | crcCalc n herr hd => simp [herr, (crcCalc_of_decode hd).1]
    | extract i v herr hd hi =>
      have hop := op_of_decode_not_crc hd hi
      simp [herr, show w.toNat % 16 ≠ 2 by omega]
    | crcCheck n herr hd hn =>
      obtain ⟨hop, rfl⟩ := crcCheck_of_decode hd
      simp only [herr, hop, withoutError_valid, writeValid_valid, validFlag_eq, ne_eq, not_true_eq_false, if_true,
        if_false]
      rfl

/-- Settles O39: only a CMD write and reset write ERR and ERRCODE. -/
theorem errHasNoOtherWriters : Obligations.ErrHasNoOtherWriters := by
  intro s t e rest hp h
  cases serves_of_step hp h with
  | reset => rfl
  | read off => rfl
  | crcCfg v => rfl
  | fb i v hi => exact (if_neg (by omega)).symm
  | ignored off v h0 => exact (if_neg h0).symm
  | command w hw =>
    have hcode : t.errcode = BitVec.ofNat 4 (Spec.errorCodeOf w) := by
      rw [errcode_of_executeWord hw, errorCodeOf_eq_commandErrorCode, BitVec.ofNat_toNat, BitVec.setWidth_eq]
    simp only [if_true, err_of_executeWord hw, hcode]

/-- Settles O40: of the events that complete, only reset and the CMD write of a CRC command write CRC_VALUE. -/
theorem crcValueHasNoOtherWriters : Obligations.CrcValueHasNoOtherWriters := by
  intro s t e rest hp h
  refine ⟨(BitVec.ofNat_toNat 32 t.crcv).symm, ?_⟩
  have hcrc : ∀ w n, BitVec.ofNat 8 (Spec.crcOfFb (Spec.serving s rest) n) = ((s.accept rest).writeCmd w).crcOf n := by
    intro w n
    rw [crcOfFb_eq, BitVec.ofNat_toNat, BitVec.setWidth_eq]
    rfl
  cases serves_of_step hp h with
  | reset => rfl
  | read off => rfl
  | crcCfg v => rfl
  | fb i v hi => exact (if_neg (by omega)).symm
  | ignored off v h0 => exact (if_neg (by omega)).symm
  | command w hw =>
    cases executes_of_executeWord hw with
    | refused e herr => simp [herr]
    | crcCalc n herr hd =>
      obtain ⟨hop, rfl⟩ := crcCalc_of_decode hd
      simp [herr, hop, hcrc w]
    | crcCheck n herr hd hn =>
      obtain ⟨hop, rfl⟩ := crcCheck_of_decode hd
      simp [herr, hop, hcrc w]
    | extract i v herr hd hi =>
      have hop := op_of_decode_not_crc hd hi
      exact (if_neg (by omega)).symm

/-- Settles O41: every other event, and a command that is refused or has OP 1 or 2, leaves RESULT. -/
theorem resultHasNoOtherWriters : Obligations.ResultHasNoOtherWriters := by
  intro s t e rest hp h hne
  cases serves_of_step hp h with
  | reset => exact .inl ⟨rfl, rfl⟩
  | read off => exact absurd rfl hne
  | crcCfg v => exact absurd rfl hne
  | fb i v hi => exact absurd rfl hne
  | ignored off v => exact absurd rfl hne
  | command w hw =>
    cases executes_of_executeWord hw with
    | refused e herr => exact absurd rfl hne
    | crcCalc n herr hd => exact absurd rfl hne
    | crcCheck n herr hd hn => exact absurd rfl hne
    | extract i v herr hd hi => exact .inr ⟨w, rfl, herr, op_of_decode_not_crc hd hi⟩

/-- Settles O42: only a write to the register itself and reset write FB, POLY or INIT. -/
theorem inputsHaveNoOtherWriters : Obligations.InputsHaveNoOtherWriters := by
  intro s t e rest hp h
  cases serves_of_step hp h with
  | reset => exact ⟨fun i => Vector.getElem_replicate .., rfl⟩
  | read off => exact ⟨fun i => rfl, rfl⟩
  | crcCfg v =>
    refine ⟨fun i => (if_neg (by omega)).symm, ?_⟩
    simp [extractLsb'_zero_eq, extractLsb'_eight_eq]
  | fb j v hj =>
    refine ⟨fun i => ?_, (if_neg (by omega)).symm⟩
    by_cases hij : j = i
    · simp [hij, setWidth_eight_eq]
    · simp [hij]
  | ignored off v h0 h8 hfb =>
    exact ⟨fun i => (if_neg (by omega)).symm, (if_neg h8).symm⟩
  | command w hw =>
    obtain ⟨-, hpoly, hinit, hfb, -⟩ := executeWord_keeps hw
    refine ⟨fun i => ?_, ?_⟩
    · simp only [hfb]
      exact (if_neg (by omega)).symm
    · simp [hpoly, hinit]

/-- Settles O5: a write to CMD stores the word and runs what it decodes to. -/
theorem stepRunsDecodedCommand : Obligations.StepRunsDecodedCommand := by
  intro s w i rest hp hd
  rw [step_event hp, serveEvent_write w _ (by decide) (by decide), show regAt 0x00 = .cmd from rfl, writeReg,
    executeWord, hd]
  rfl

/-- Settles O12: FBi's offset names it, and an unwritten byte reads as its free value. -/
theorem unwrittenFbReadReturnsFreeByte : Obligations.UnwrittenFbReadReturnsFreeByte := by
  intro s i rest hi hp hw
  rw [step_event hp, serveEvent_read _ (by omega) (by omega), regAt_fb i (by omega), State.readReg,
    fbByte_of_not_written (s := s.accept rest) hw]
  rfl

end Sys2Proof

/-! SUPPORT. The register window (20_memory.md): one admitted or unadmitted access as one step, the words a read returns in
plain arithmetic, and a command word executed twice. -/

namespace Sys2Proof

open Machine

namespace Machine

/-! ### One access as one step -/

/-- R53: an access that is no aligned word access is unspecified. -/
theorem accessFault_unspecified {size : AccessSize} {off : Nat} (h : size ≠ .word ∨ off % 4 ≠ 0) :
    accessFault size off = some .unspecifiedAccess := if_pos h

/-- R182: an aligned word access above 0x7C is outside the window. -/
theorem accessFault_outside {off : Nat} (h4 : off % 4 = 0) (h : 0x7C < off) :
    accessFault .word off = some .outsideWindow := by
  unfold accessFault
  rw [if_neg (by simp [h4]), if_pos h]

/-- A pending access with a fault stops the step with it. -/
theorem step_of_accessFault {s : State} {size : AccessSize} {off : Nat} {v : Word} {rest : List HostEvent} {f : Fault}
    (hp : s.pending = .read size off :: rest ∨ s.pending = .write size off v :: rest)
    (hf : accessFault size off = some f) : step s = .fault f := by
  rcases hp with hp | hp
  · rw [step_event hp, serveEvent, hf]
  · rw [step_event hp, serveEvent, hf]

/-- R52, R57: a pending admitted read returns its register. -/
theorem step_read {s : State} {off : Nat} {rest : List HostEvent} (hp : s.pending = .read .word off :: rest)
    (h4 : off % 4 = 0) (hle : off ≤ 0x7C) :
    step s = .next ((s.accept rest).returnRead ((s.accept rest).readReg (regAt off))) := by
  rw [step_event hp, serveEvent_read _ h4 hle]

/-- R52, R57: a pending admitted write writes its register. -/
theorem step_write {s : State} {off : Nat} {v : Word} {rest : List HostEvent}
    (hp : s.pending = .write .word off v :: rest) (h4 : off % 4 = 0) (hle : off ≤ 0x7C) :
    step s = writeReg (regAt off) v (s.accept rest) := by
  rw [step_event hp, serveEvent_write v _ h4 hle]

/-- R54, R55: a pending write to an offset that is not CMD's, CRC_CFG's or one of FB's only leaves the queue. -/
theorem step_write_ignored {s : State} {off : Nat} {v : Word} {rest : List HostEvent}
    (hp : s.pending = .write .word off v :: rest) (h4 : off % 4 = 0) (hle : off ≤ 0x7C) (h0 : off ≠ 0x00)
    (h8 : off ≠ 0x08) (hfb : ¬ (0x40 ≤ off ∧ off ≤ 0x68)) : step s = .next (s.accept rest) := by
  rw [step_write hp h4 hle, writeReg_ignored v _ h0 h8 hfb]

/-- R54: no register has an offset in 0x14 to 0x3C or above 0x68. -/
theorem regAt_reserved {off : Nat} (h : 0x10 < off) (hfb : ¬ (0x40 ≤ off ∧ off ≤ 0x68)) : regAt off = .reserved := by
  unfold regAt
  simp (disch := omega) only [if_neg]

/-- A register write touches nothing of the host's. -/
theorem writeReg_keeps_host {r : WindowReg} {v : Word} {s t : State} (h : writeReg r v s = .next t) :
    t.pending = s.pending ∧ t.reads = s.reads := by
  cases r with
  | cmd =>
    obtain ⟨-, -, -, -, hpending, hreads, -⟩ := executeWord_keeps h
    exact ⟨hpending, hreads⟩
  | _ => cases h; exact ⟨rfl, rfl⟩

/-- R57: a write followed by a read of the same offset reads its register in the state the write left. -/
theorem step_write_step_read {s : State} {off : Nat} {v : Word} {rest : List HostEvent}
    (hp : s.pending = .write .word off v :: .read .word off :: rest) (h4 : off % 4 = 0) (hle : off ≤ 0x7C) :
    ∃ t, writeReg (regAt off) v (s.accept (.read .word off :: rest)) = .next t ∧ step s = .next t ∧
      step t = .next ((t.accept rest).returnRead ((t.accept rest).readReg (regAt off))) ∧ t.reads = s.reads := by
  obtain ⟨t, ht⟩ := writeReg_next (regAt off) v (s.accept (.read .word off :: rest))
  obtain ⟨hpending, hreads⟩ := writeReg_keeps_host ht
  exact ⟨t, ht, (step_write hp h4 hle).trans ht, step_read hpending h4 hle, hreads⟩

/-! ### The words a read returns -/

/-- R22: STATUS as the number its bits are. -/
theorem statusWord_eq (s : State) : s.statusWord = BitVec.ofNat 32 (Spec.statusValue s) := by
  have h : ∀ (c : BitVec 4) (e v : Bool), 0#24 ++ c ++ 0#2 ++ BitVec.ofBool e ++ BitVec.ofBool v =
      BitVec.ofNat 32 (v.toNat + 2 * e.toNat + 16 * c.toNat) := by decide
  exact h s.errcode s.err s.valid

/-- R22, R56: bits 31:8 and 3:2 of STATUS are 0. -/
theorem statusWord_reserved (s : State) : s.statusWord &&& 0xFFFFFF0C#32 = 0#32 := by
  rw [State.statusWord, show 0xFFFFFF0C#32 = 0xFFFFFF#24 ++ 0#4 ++ 0b11#2 ++ 0#1 ++ 0#1 from rfl,
    BitVec.and_append, BitVec.and_append, BitVec.and_append, BitVec.and_append]
  simp

/-- R26: CRC_CFG as the number its two bytes are. -/
theorem crcCfgWord_eq (init poly : Byte) :
    0#16 ++ init ++ poly = BitVec.ofNat 32 (256 * init.toNat + poly.toNat) := by
  apply BitVec.eq_of_toNat_eq
  rw [BitVec.toNat_append, BitVec.toNat_append, ← Nat.shiftLeft_add_eq_or_of_lt poly.isLt]
  simp [Nat.shiftLeft_eq]
  omega

/-- R26, R56: CRC_CFG reads back bits 15:0 of the word written. -/
theorem crcCfgWord_of_write (v : Word) :
    0#16 ++ v.extractLsb' 8 8 ++ v.extractLsb' 0 8 = v &&& 0x0000FFFF#32 := by
  rw [crcCfgWord_eq, extractLsb'_eight_eq, extractLsb'_zero_eq]
  apply BitVec.eq_of_toNat_eq
  have hand : (v &&& 0x0000FFFF#32).toNat = v.toNat % 2 ^ 16 := Nat.and_two_pow_sub_one_eq_mod v.toNat 16
  rw [hand]
  simp
  omega

/-- R31, R56: FBi reads back bits 7:0 of the word written. -/
theorem fbWord_of_write (v : Word) : (v.setWidth 8).setWidth 32 = v &&& 0x000000FF#32 := by
  apply BitVec.eq_of_toNat_eq
  have hand : (v &&& 0x000000FF#32).toNat = v.toNat % 2 ^ 8 := Nat.and_two_pow_sub_one_eq_mod v.toNat 8
  rw [hand]
  simp
  omega

/-- R28, R56: bits 31:8 of a zero-extended byte are 0. -/
theorem setWidth_and_upper (b : Byte) : b.setWidth 32 &&& 0xFFFFFF00#32 = 0#32 := by
  rw [show b.setWidth 32 = 0#24 ++ b from BitVec.setWidth_eq_append (by decide),
    show 0xFFFFFF00#32 = 0xFFFFFF#24 ++ 0#8 from rfl, BitVec.and_append]
  simp

/-- R31: an FB byte that was written reads as it was written. -/
theorem fbByte_eq_of_getElem? {s : State} {i : Nat} {b : Byte} (h : s.fb[i]? = some (some b)) : s.fbByte i = b := by
  simp [State.fbByte, h]

/-! ### Executing a word again -/

/-- Writing to CMD the word it holds changes nothing. -/
theorem writeCmd_eq_self {s : State} {w : Word} (h : s.cmd = w) : s.writeCmd w = s := by
  subst h
  rfl

/-- R57: a word executed again, in a later access, in the state its execution left makes the same writes, so changes
nothing. -/
theorem executeWord_again {w : Word} {s t : State} (rest : List HostEvent) (h : executeWord w s = .next t)
    (hread : s.readsWritten w) : executeWord w (t.accept rest) = .next (t.accept rest) := by
  obtain ⟨-, hpoly, hinit, hfb, -⟩ := executeWord_keeps h
  rcases executeWord_cases w s with ⟨e, he, h'⟩ | ⟨i, he, hd, h'⟩ <;> rw [h'] at h
  · cases h
    rcases executeWord_cases w ((s.withError e).accept rest) with ⟨e', he', h''⟩ | ⟨i, he', -⟩ <;>
      (rw [he] at he'; cases he')
    exact h''
  · have hop : operandError i = none := by simpa [commandError, hd] using he
    have hagain : executeWord w (t.accept rest) = exec i (t.accept rest) := by simp only [executeWord, hd]
    have hbytes : ∀ k ∈ readSet i, s.fbByte k = (t.accept rest).fbByte k := fun k hk =>
      (fbByte_of_written (t := t.accept rest) hfb (hread i hd hop k hk)).symm
    rw [hagain]
    rcases exec_readSet (t := t.accept rest) hop hpoly.symm hinit.symm hbytes with
      ⟨c, h1, h2⟩ | ⟨c, b, h1, h2⟩ | ⟨v, h1, h2⟩ <;>
      (rw [h1] at h; cases h; exact h2)

end Machine

/-! ### The obligations -/

/-- Settles O9: each of the two kinds of access has its fault. -/
theorem unadmittedAccessHasNoStep : Obligations.UnadmittedAccessHasNoStep := by
  intro s size off v rest hp
  refine ⟨fun h => step_of_accessFault hp (accessFault_unspecified h), fun hsize h4 h => ?_⟩
  subst hsize
  exact step_of_accessFault hp (accessFault_outside h4 h)

/-- Settles O11: each offset names its register, whose word is the stated number. -/
theorem hostReadReturnsRegisterOnly : Obligations.HostReadReturnsRegisterOnly := by
  intro s off rest hp
  refine ⟨?_, ?_, ?_, ?_, ?_, fun i b hoff hb => ?_⟩
  · rintro rfl
    exact step_read hp (by decide) (by decide)
  · rintro rfl
    rw [← statusWord_eq]
    exact step_read hp (by decide) (by decide)
  · rintro rfl
    rw [← crcCfgWord_eq]
    exact step_read hp (by decide) (by decide)
  · rintro rfl
    rw [BitVec.ofNat_toNat]
    exact step_read hp (by decide) (by decide)
  · rintro rfl
    exact step_read hp (by decide) (by decide)
  · subst hoff
    obtain ⟨hi, -⟩ := Vector.getElem?_eq_some_iff.1 hb
    rw [step_read hp (by omega) (by omega), regAt_fb i hi, State.readReg,
      fbByte_eq_of_getElem? (s := s.accept rest) hb, BitVec.ofNat_toNat]
    rfl

/-- Settles O13: these offsets name no register. -/
theorem reservedOffsetsReadZeroIgnoreWrites : Obligations.ReservedOffsetsReadZeroIgnoreWrites := by
  refine fun s off rest h4 hoff => ⟨fun hp => ?_, fun v hp => ?_⟩
  · rw [step_read hp h4 (by omega), regAt_reserved (by omega) (by omega)]
    rfl
  · exact step_write_ignored hp h4 (by omega) (by omega) (by omega) (by omega)

/-- Settles O16: the read returns what the write left in the register, reserved bits being no part of it. -/
theorem reservedBitsReadZero : Obligations.ReservedBitsReadZero := by
  intro s v off rest hp h4 hle
  obtain ⟨t, hw, hs, ht, hreads⟩ := step_write_step_read hp h4 hle
  refine ⟨t, _, (t.accept rest).readReg (regAt off), hs, ht, by simp [hreads], ?_, ?_, ?_, ?_, fun hlo hhi => ?_⟩
  · rintro rfl
    obtain ⟨hcmd, -⟩ := executeWord_keeps hw
    exact ⟨hcmd, by rw [errcode_of_executeWord hw, errorCodeOf_eq_commandErrorCode]⟩
  · rintro rfl
    exact statusWord_reserved _
  · rintro rfl
    cases hw
    exact crcCfgWord_of_write v
  · rintro rfl
    exact setWidth_and_upper _
  · obtain ⟨i, hi, rfl⟩ : ∃ i, i < 11 ∧ off = 0x40 + 4 * i := ⟨(off - 0x40) / 4, by omega, by omega⟩
    rw [regAt_fb i hi] at hw ⊢
    cases hw
    rw [State.readReg, fbByte_eq_of_getElem? (b := v.setWidth 8) (by simp [hi]), fbWord_of_write]

/-- Settles O43: the first write leaves the word in CMD, and executing it again changes nothing. -/
theorem sameCommandTwiceIsIdempotent : Obligations.SameCommandTwiceIsIdempotent := by
  intro s t u w rest hread hp hs ht
  have hfirst : executeWord w ((s.accept (.write .word 0x00 w :: rest)).writeCmd w) = .next t :=
    (step_write hp (by decide) (by decide)).symm.trans hs
  obtain ⟨hcmd, -, -, -, hpending, -⟩ := executeWord_keeps hfirst
  have hsecond : executeWord w ((t.accept rest).writeCmd w) = .next u :=
    (step_write hpending (by decide) (by decide)).symm.trans ht
  rw [writeCmd_eq_self (s := t.accept rest) (w := w) hcmd, executeWord_again rest hfirst hread] at hsecond
  cases hsecond
  rfl

/-- Settles O14: these offsets are none that a write changes. -/
theorem readOnlyRegistersIgnoreWrites : Obligations.ReadOnlyRegistersIgnoreWrites := by
  intro s off v rest hoff hp
  exact step_write_ignored hp (by omega) (by omega) (by omega) (by omega) (by omega)

/-- Settles O17: an address in the window has its distance from the base as offset, and no other has one. -/
theorem windowIs128BytesAtBase : Obligations.WindowIs128BytesAtBase := by
  intro base addr off
  unfold windowOffset
  split_ifs with h
  · rw [Option.some_inj]
    omega
  · simp only [false_iff]
    omega

end Sys2Proof

/-! SUPPORT. The command word in both directions (30_encoding.md R70 to R82): the number of each format's word, and the CMD
write that checks one. -/

namespace Sys2Proof

open Machine

/-! ### The number of a command's word -/

/-- Two fields that do not overlap add up: `word_eq_shift_or` as the number of the OR. -/
theorem toNat_shift_or {f k low : Nat} (h : f * 2 ^ k + low < 2 ^ 32) (hlow : low < 2 ^ k) :
    (BitVec.ofNat 32 f <<< k ||| BitVec.ofNat 32 low).toNat = f * 2 ^ k + low := by
  have hw : (BitVec.ofNat 32 (f * 2 ^ k + low)).toNat = f * 2 ^ k + low := Nat.mod_eq_of_lt h
  rw [← word_eq_shift_or _ f k low hw hlow, hw]

/-- R73: N in bits 7:4, OP 1. -/
theorem encode_crcCalc_toNat {n : Nat} (hn : n ≤ 15) : (encode (.crcCalc n)).toNat = n * 16 + 1 :=
  toNat_shift_or (k := 4) (by omega) (by decide)

/-- R73: N in bits 7:4, OP 2. -/
theorem encode_crcCheck_toNat {n : Nat} (hn : n ≤ 15) : (encode (.crcCheck n)).toNat = n * 16 + 2 :=
  toNat_shift_or (k := 4) (by omega) (by decide)

/-- R76: FSEL in bits 8:4, OP 5. -/
theorem encodeF_toNat {fsel : Nat} (hf : fsel ≤ 31) : (encodeF fsel).toNat = fsel * 16 + 5 :=
  toNat_shift_or (k := 4) (by omega) (by decide)

/-- Three fields that do not overlap add up: an OP below bit 4, an operand from bit 4 to below bit `k`, another from
bit `k`. -/
theorem toNat_shift_or_shift_or {f g k op : Nat} (h : f * 2 ^ k + (g * 16 + op) < 2 ^ 32) (hg : g * 16 + op < 2 ^ k)
    (hop : op < 16) : (BitVec.ofNat 32 f <<< k ||| BitVec.ofNat 32 g <<< 4 ||| BitVec.ofNat 32 op).toNat =
      f * 2 ^ k + (g * 16 + op) := by
  have hlow : BitVec.ofNat 32 (g * 16 + op) = BitVec.ofNat 32 g <<< 4 ||| BitVec.ofNat 32 op :=
    word_eq_shift_or _ g 4 op (Nat.mod_eq_of_lt (by omega)) hop
  rw [BitVec.or_assoc, ← hlow]
  exact toNat_shift_or h hg

/-- R74: WM1 in bits 15:11, POS in bits 10:4, OP 3. -/
theorem encode_bfx_toNat {pos width : Nat} (hpos : pos ≤ 127) (hwidth : width ≤ 32) :
    (encode (.bfx pos width)).toNat = (width - 1) * 2048 + (pos * 16 + 3) :=
  toNat_shift_or_shift_or (k := 11) (by omega) (by omega) (by decide)

/-- R75: TW in bits 9:8, BYTE in bits 7:4, OP 4. -/
theorem encode_bcd_toNat {byte tens : Nat} (hbyte : byte ≤ 15) (htens : tens ≤ 4) :
    (encode (.bcd byte tens)).toNat = (tens - 1) * 256 + (byte * 16 + 4) :=
  toNat_shift_or_shift_or (k := 8) (by omega) (by omega) (by decide)

/-! ### Operands in their fields -/

/-- R82: n fits CRC.CALC's N. -/
theorem wellFormed_crcCalc {n : Nat} : (Instr.crcCalc n).wellFormed = true ↔ n ≤ 15 := decide_eq_true_iff

/-- R82: n fits CRC.CHECK's N. -/
theorem wellFormed_crcCheck {n : Nat} : (Instr.crcCheck n).wellFormed = true ↔ n ≤ 15 := decide_eq_true_iff

/-- R82: pos fits POS, and width less one fits WM1. -/
theorem wellFormed_bfx {pos width : Nat} :
    (Instr.bfx pos width).wellFormed = true ↔ pos ≤ 127 ∧ 1 ≤ width ∧ width ≤ 32 := by
  simp [Instr.wellFormed, and_assoc]

/-- R82: byte fits BYTE, and tens less one fits TW. -/
theorem wellFormed_bcd {byte tens : Nat} :
    (Instr.bcd byte tens).wellFormed = true ↔ byte ≤ 15 ∧ 1 ≤ tens ∧ tens ≤ 4 := by
  simp [Instr.wellFormed, and_assoc]

/-! ### The obligations -/

/-- Settles O1: the number of an operand's word has the operand as its digits. A FIELD command has no operand, so its one
word is decoded as it stands. -/
theorem decodeOfEncodeIsIdentity : Obligations.DecodeOfEncodeIsIdentity := by
  intro i hi
  cases i with
  | crcCalc n =>
    have hn := wellFormed_crcCalc.1 hi
    have hop : (n * 16 + 1) / 16 % 16 = n := by omega
    simp (disch := omega) only [decode_arith, encode_crcCalc_toNat hn, if_pos, if_neg, hop]
  | crcCheck n =>
    have hn := wellFormed_crcCheck.1 hi
    have hop : (n * 16 + 2) / 16 % 16 = n := by omega
    simp (disch := omega) only [decode_arith, encode_crcCheck_toNat hn, if_pos, if_neg, hop]
  | bfx pos width =>
    obtain ⟨hpos, h1, hwidth⟩ := wellFormed_bfx.1 hi
    have hpos' : ((width - 1) * 2048 + (pos * 16 + 3)) / 16 % 128 = pos := by omega
    have hwidth' : ((width - 1) * 2048 + (pos * 16 + 3)) / 2048 % 32 + 1 = width := by omega
    simp (disch := omega) only [decode_arith, encode_bfx_toNat hpos hwidth, if_pos, if_neg, hpos', hwidth']
  | bcd byte tens =>
    obtain ⟨hbyte, h1, htens⟩ := wellFormed_bcd.1 hi
    have hbyte' : ((tens - 1) * 256 + (byte * 16 + 4)) / 16 % 16 = byte := by omega
    have htens' : ((tens - 1) * 256 + (byte * 16 + 4)) / 256 % 4 + 1 = tens := by omega
    simp (disch := omega) only [decode_arith, encode_bcd_toNat hbyte htens, if_pos, if_neg, hbyte', htens']
  | _ => rfl

/-- Settles O2: a word that decodes has no bit set outside its format's fields, so it is the sum of OP and the shifted
operands that `encode` writes. -/
theorem encodeOfDecodeIsIdentity : Obligations.EncodeOfDecodeIsIdentity := by
  intro w i h
  rw [decode_arith] at h
  simp only at h
  split_ifs at h
  · cases h
    refine ⟨wellFormed_crcCalc.2 (by omega), BitVec.eq_of_toNat_eq ?_⟩
    rw [encode_crcCalc_toNat (by omega)]
    omega
  · cases h
    refine ⟨wellFormed_crcCheck.2 (by omega), BitVec.eq_of_toNat_eq ?_⟩
    rw [encode_crcCheck_toNat (by omega)]
    omega
  · cases h
    refine ⟨wellFormed_bfx.2 (by omega), BitVec.eq_of_toNat_eq ?_⟩
    rw [encode_bfx_toNat (by omega) (by omega)]
    omega
  · cases h
    refine ⟨wellFormed_bcd.2 (by omega), BitVec.eq_of_toNat_eq ?_⟩
    rw [encode_bcd_toNat (by omega) (by omega)]
    omega
  · split at h
    · next hsel =>
      cases h
      obtain ⟨-, hwf, henc, -⟩ := fieldOfSelect_eq_some hsel
      refine ⟨hwf, BitVec.eq_of_toNat_eq ?_⟩
      rw [henc, encodeF_toNat (by omega)]
      omega
    · cases h

/-- Settles O6: the code is that of `commandError`, which decides between the error's writes and the decoded command. -/
theorem commandWordIsCheckedAsR81 : Obligations.CommandWordIsCheckedAsR81 := by
  intro s w rest hp
  have hstep : step s = executeWord w ((s.accept rest).writeCmd w) := step_write hp (by decide) (by decide)
  rw [hstep]
  rcases executeWord_cases w ((s.accept rest).writeCmd w) with ⟨e, he, h⟩ | ⟨i, he, hd, h⟩
  · have hcode : BitVec.ofNat 4 (Spec.errorCodeOf w) = errorCode e := by
      simp [errorCodeOf_eq_commandErrorCode, commandErrorCode, he]
    refine ⟨fun _ => ?_, fun h0 => ?_⟩
    · rw [h, Spec.withErrorCode, hcode]
      rfl
    · rw [(errorCodeOf_eq_zero_iff w).1 h0] at he
      cases he
  · refine ⟨fun hne => absurd ((errorCodeOf_eq_zero_iff w).2 he) hne, fun _ => ?_⟩
    obtain ⟨t, ht⟩ := executeWord_next w ((s.accept rest).writeCmd w)
    rcases executeWord_status ht with ⟨e, he', -⟩ | ⟨-, herr, hcode⟩
    · rw [he] at he'
      cases he'
    · exact ⟨i, t, hd, h.symm.trans ht, ht, herr, hcode⟩

end Sys2Proof

/-! SUPPORT. The CRC-8 validator commands (40_crc8.md): how each is written, completed and refused, what a CRC over one more
byte is, and the host's sequence that builds a trailer (95_test_vectors.md P3). -/

namespace Sys2Proof

open Machine

/-! ### The word of a CRC command -/

/-- R73: a format C word with OP 1 is the one CRC.CALC encodes to. -/
theorem decode_crcCalc {n : Nat} (hn : n ≤ 15) : decode (BitVec.ofNat 32 (n * 16 + 1)) = .ok (.crcCalc n) := by
  rw [← encode_crcCalc_toNat hn, BitVec.ofNat_toNat, BitVec.setWidth_eq]
  exact decodeOfEncodeIsIdentity _ (wellFormed_crcCalc.2 hn)

/-- R73: a format C word with OP 2 is the one CRC.CHECK encodes to. -/
theorem decode_crcCheck {n : Nat} (hn : n ≤ 15) : decode (BitVec.ofNat 32 (n * 16 + 2)) = .ok (.crcCheck n) := by
  rw [← encode_crcCheck_toNat hn, BitVec.ofNat_toNat, BitVec.setWidth_eq]
  exact decodeOfEncodeIsIdentity _ (wellFormed_crcCheck.2 hn)

/-- R71, R73: a word with the OP of a CRC command and a bit above 7 set is refused for it. -/
theorem decode_rsvdBits_formatC {w : Word} (hop : w.toNat % 16 = 1 ∨ w.toNat % 16 = 2) (hr : w.toNat / 2 ^ 8 ≠ 0) :
    decode w = .error .rsvdBits := by
  have hle : 256 ≤ w.toNat := by omega
  rcases hop with hop | hop <;> simp [decode_arith, hop, hle]

namespace Machine

/-! ### How a CRC command ends -/

/-- R73, R152: CRC.CALC is refused above a covered length of 11. -/
theorem exec_crcCalc_refused {n : Nat} (s : State) (h : 11 < n) :
    exec (.crcCalc n) s = .next (s.withError .crcLen) := by
  simp only [exec, execCrcCalc, crcCalcOperandError]
  rw [if_pos h]
  rfl

/-- R73, R152: CRC.CHECK is refused above a covered length of 10. -/
theorem exec_crcCheck_refused {n : Nat} (s : State) (h : 10 < n) :
    exec (.crcCheck n) s = .next (s.withError .crcLen) := by
  simp only [exec, execCrcCheck, crcCheckOperandError]
  rw [if_pos h]
  rfl

/-! ### The CRC over FB -/

/-- `crcOfFb_eq` as a byte. -/
theorem ofNat_crcOfFb (s : State) (n : Nat) : BitVec.ofNat 8 (Spec.crcOfFb s n) = s.crcOf n := by
  rw [crcOfFb_eq, BitVec.ofNat_toNat, BitVec.setWidth_eq]

/-- R100: covering one more byte is one more round of the outer loop. -/
theorem crcOf_succ (s : State) (n : Nat) : s.crcOf (n + 1) = crcByte s.poly (s.crcOf n) (s.fbByte n) := by
  have hbytes : s.fbBytes (n + 1) = s.fbBytes n ++ [s.fbByte n] := by simp [State.fbBytes, List.range_succ]
  rw [State.crcOf, hbytes, crc8_append]
  rfl

/-- R100: a byte equal to the register clears it. -/
theorem crcByte_self (poly c : Byte) : crcByte poly c c = 0#8 := by
  rw [crcByte, BitVec.xor_self, crcShifts_zero]

/-! ### The lines of a host program -/

/-- R82: a pending command line runs its command, with its word in CMD. -/
theorem step_commandLine {s : State} {i : Instr} {rest : List HostEvent} (hi : i.wellFormed = true)
    (hp : s.pending = commandLine i :: rest) : step s = exec i ((s.accept rest).writeCmd (encode i)) :=
  stepRunsDecodedCommand s (encode i) i rest hp (decodeOfEncodeIsIdentity i hi)

/-- R34, R101: the CRC of bytes that were written is the same in every access that finds FB, POLY and INIT the same. -/
theorem crcOf_of_written {s a : State} {n : Nat} (hw : s.fbWrittenBelow n) (hfb : a.fb = s.fb) (hp : a.poly = s.poly)
    (hi : a.init = s.init) : a.crcOf n = s.crcOf n :=
  crcOf_congr hp hi fun k hk => fbByte_of_written hfb (hw k hk)

/-- R101: a write to `FB[n]` leaves the CRC of the bytes below it. -/
theorem crcOf_writeFb (s : State) (n : Nat) (v : Word) : (s.writeFb n v).crcOf n = s.crcOf n :=
  crcOf_congr rfl rfl fun k hk => fbByte_writeFb_other s n k v (by omega)

/-- R34: a write to `FB[n]` extends the written bytes below it. -/
theorem fbWrittenBelow_writeFb {s : State} {n : Nat} (v : Word) (hn : n < 11) (hw : s.fbWrittenBelow n) :
    (s.writeFb n v).fbWrittenBelow (n + 1) := by
  intro k hk
  rcases Nat.lt_succ_iff_lt_or_eq.1 hk with hlt | rfl
  · simp [fbWritten_writeFb, hw k hlt]
  · simp [fbWritten_writeFb, hn]

/-- R102: a pending CRC.CALC line over written bytes leaves their CRC in CRC_VALUE, and the bytes and their CRC as they
were. -/
theorem step_crcCalcLine {s : State} {n : Nat} {rest : List HostEvent} (hn : n ≤ 11) (hw : s.fbWrittenBelow n)
    (hp : s.pending = commandLine (.crcCalc n) :: rest) :
    ∃ t, step s = .next t ∧ t.crcv = s.crcOf n ∧ t.crcOf n = s.crcOf n ∧ t.fbWrittenBelow n ∧ t.pending = rest := by
  have hstep := (step_commandLine (wellFormed_crcCalc.2 (by omega)) hp).trans (exec_crcCalc _ hn)
  exact ⟨_, hstep, crcOf_of_written hw rfl rfl rfl, crcOf_of_written hw rfl rfl rfl, hw, rfl⟩

/-- R82, R51: a pending `WR FBn, b` over written bytes leaves `b` in `FB[n]`, and the bytes below and their CRC as they
were. -/
theorem step_writeFbLine {s : State} {n : Nat} {b : Byte} {rest : List HostEvent} (hn : n < 11) (hw : s.fbWrittenBelow n)
    (hp : s.pending = writeFbLine n b :: rest) :
    ∃ t, step s = .next t ∧ t.fbByte n = b ∧ t.crcOf n = s.crcOf n ∧ t.fbWrittenBelow (n + 1) ∧ t.pending = rest := by
  have hstep : step s = .next ((s.accept rest).writeFb n (b.setWidth 32)) := by
    rw [step_write hp (by omega) (by omega), regAt_fb n hn, writeReg]
  have hbyte : (b.setWidth 32).setWidth 8 = b := by
    rw [BitVec.setWidth_setWidth_of_le _ (by decide), BitVec.setWidth_eq]
  have hcrc : (s.accept rest).crcOf n = s.crcOf n := crcOf_of_written hw rfl rfl rfl
  exact ⟨_, hstep, (fbByte_writeFb_same _ n _ hn).trans hbyte, (crcOf_writeFb _ n _).trans hcrc,
    fbWrittenBelow_writeFb _ hn hw, rfl⟩

/-- R103: a pending CRC.CHECK line over written bytes leaves their CRC in CRC_VALUE and its comparison with the trailer in
VALID. -/
theorem step_crcCheckLine {s : State} {n : Nat} {rest : List HostEvent} (hn : n ≤ 10) (hw : s.fbWrittenBelow (n + 1))
    (hp : s.pending = commandLine (.crcCheck n) :: rest) :
    ∃ t, step s = .next t ∧ t.crcv = s.crcOf n ∧ t.valid = validFlag (s.crcOf n) (s.fbByte n) ∧ t.err = false ∧
      t.pending = rest := by
  have hstep := (step_commandLine (wellFormed_crcCheck.2 (by omega)) hp).trans (exec_crcCheck _ hn)
  have hfb : ((s.accept rest).writeCmd (encode (.crcCheck n))).fb = s.fb := rfl
  have hcrc : ((s.accept rest).writeCmd (encode (.crcCheck n))).crcOf n = s.crcOf n :=
    crcOf_of_written (fun k hk => hw k (by omega)) hfb rfl rfl
  have htrailer : ((s.accept rest).writeCmd (encode (.crcCheck n))).fbByte n = s.fbByte n :=
    fbByte_of_written hfb (hw n (by omega))
  refine ⟨_, hstep, hcrc, ?_, rfl, rfl⟩
  rw [withoutError_valid, writeValid_valid, hcrc, htrailer]

end Machine

/-! ### The obligations -/

/-- Settles O20: the command completes for a length up to 11 and is refused above. -/
theorem crcCalcResult : Obligations.CrcCalcResult := by
  intro n s hn
  refine ⟨decode_crcCalc hn, fun h => ?_, fun h => exec_crcCalc_refused s h,
    fun w hop hr => decode_rsvdBits_formatC (.inl hop) hr, rfl⟩
  rw [exec_crcCalc s h, ofNat_crcOfFb]
  rfl

/-- Settles O21: the command completes for a length up to 10 and is refused above. -/
theorem crcCheckResult : Obligations.CrcCheckResult := by
  intro n s hn
  refine ⟨decode_crcCheck hn, fun h => ?_, fun h => exec_crcCheck_refused s h,
    fun w hop hr => decode_rsvdBits_formatC (.inr hop) hr, rfl⟩
  rw [exec_crcCheck s h, ofNat_crcOfFb, validFlag_eq]
  rfl

/-- Settles O22: both commands leave the CRC of the covered bytes, and VALID compares it with the trailer. -/
theorem crcDependsOnCoveredBytesOnly : Obligations.CrcDependsOnCoveredBytesOnly := by
  intro n s s' hn hp hi hb
  have hcrc : s.crcOf n = s'.crcOf n := crcOf_congr hp hi hb
  refine ⟨_, _, exec_crcCalc s hn, exec_crcCalc s' hn, hcrc, fun hn' => ?_⟩
  refine ⟨_, _, exec_crcCheck s hn', exec_crcCheck s' hn', rfl, hcrc.symm, fun htrailer => ?_⟩
  simp [hcrc, htrailer]

/-- Settles O25: the last round XORs the trailer into a register equal to it. -/
theorem crcOverOwnTrailerIsZero : Obligations.CrcOverOwnTrailerIsZero := by
  intro n s t u hn ht htrailer hu
  rw [exec_crcCalc s (by omega)] at ht hu
  cases ht
  cases hu
  have hself : s.fbByte n = s.crcOf n := htrailer
  simp [crcOf_succ, hself, crcByte_self]

/-- Settles O26: the trailer's write leaves the covered bytes, so the check computes the same CRC and finds it in FBN. -/
theorem calculatedTrailerPassesCheck : Obligations.CalculatedTrailerPassesCheck := by
  intro n c s rest hn hw hc hp
  rw [ofNat_crcOfFb] at hc
  obtain ⟨t, ht, htcrcv, htcrc, htw, htp⟩ := step_crcCalcLine (by omega) hw hp
  obtain ⟨u, hu, hutrailer, hucrc, huw, hup⟩ := step_writeFbLine (by omega) htw htp
  obtain ⟨r, hr, hrcrcv, hrvalid, hrerr, hrp⟩ := step_crcCheckLine hn huw hup
  have hcrc : u.crcOf n = c := (hucrc.trans htcrc).trans hc.symm
  have hvalid : r.valid = true := by simp [hrvalid, hcrc, hutrailer, validFlag]
  exact ⟨t, u, r, ht, htcrcv.trans hc.symm, hu, hr, hvalid, hrerr, hrcrcv.trans hcrc, hrp⟩

/-- Settles O36: each way a command ends writes its own registers only. -/
theorem commandsLeaveOtherResults : Obligations.CommandsLeaveOtherResults := by
  intro i s t h
  rcases exec_cases i s with ⟨e, -, h'⟩ | ⟨n, rfl, -, h'⟩ | ⟨n, rfl, -, h'⟩ | ⟨hi, -, v, h'⟩ <;>
    (rw [h'] at h; cases h)
  · exact ⟨fun _ => rfl, fun _ => rfl, nofun⟩
  · exact ⟨fun _ => rfl, fun hne => absurd rfl (hne n).1, fun _ _ => rfl⟩
  · exact ⟨fun _ => rfl, fun hne => absurd rfl (hne n).2, fun _ hne => absurd rfl (hne n)⟩
  · exact ⟨fun ⟨n, hn⟩ => hn.elim (fun h => absurd h (hi n).1) fun h => absurd h (hi n).2, fun _ => rfl, fun _ _ => rfl⟩

end Sys2Proof

/-! SUPPORT. The bit-field extractor and the BCD decoder (41_bitfield_bcd.md): the field as the frame bits it holds, how the
commands are written and refused, and the range of two BCD digits. -/

namespace Sys2Proof

open Machine

/-! ### The word of a command -/

/-- R82: the word of a well-formed command decodes to it. -/
theorem decode_of_encode_eq {i : Instr} {w : Word} (hi : i.wellFormed = true) (hw : encode i = w) : decode w = .ok i :=
  hw ▸ decodeOfEncodeIsIdentity i hi

/-- R82: so does the number of that word. -/
theorem decode_of_encode_toNat {i : Instr} {n : Nat} (hi : i.wellFormed = true) (hn : (encode i).toNat = n) :
    decode (BitVec.ofNat 32 n) = .ok i :=
  decode_of_encode_eq hi (by rw [← hn, BitVec.ofNat_toNat, BitVec.setWidth_eq])

/-- R74: a format X word is the one BFX encodes to. -/
theorem decode_bfx {p w : Nat} (hp : p ≤ 127) (h1 : 1 ≤ w) (hw : w ≤ 32) :
    decode (BitVec.ofNat 32 ((w - 1) * 2 ^ 11 + p * 16 + 3)) = .ok (.bfx p w) := by
  rw [Nat.add_assoc]
  exact decode_of_encode_toNat (wellFormed_bfx.2 ⟨hp, h1, hw⟩) (encode_bfx_toNat hp hw)

/-- R75: a format D word is the one BCD encodes to. -/
theorem decode_bcd {b t : Nat} (hb : b ≤ 15) (h1 : 1 ≤ t) (ht : t ≤ 4) :
    decode (BitVec.ofNat 32 ((t - 1) * 256 + b * 16 + 4)) = .ok (.bcd b t) := by
  rw [Nat.add_assoc]
  exact decode_of_encode_toNat (wellFormed_bcd.2 ⟨hb, h1, ht⟩) (encode_bcd_toNat hb ht)

/-- R71, R74: a word with BFX's OP and a bit above 15 set is refused for it. -/
theorem decode_rsvdBits_formatX {w : Word} (hop : w.toNat % 16 = 3) (hr : w.toNat / 2 ^ 16 ≠ 0) :
    decode w = .error .rsvdBits := by
  have hle : 65536 ≤ w.toNat := by omega
  simp [decode_arith, hop, hle]

/-- R71, R75: a word with BCD's OP and a bit above 9 set is refused for it. -/
theorem decode_rsvdBits_formatD {w : Word} (hop : w.toNat % 16 = 4) (hr : w.toNat / 2 ^ 10 ≠ 0) :
    decode w = .error .rsvdBits := by
  have hle : 1024 ≤ w.toNat := by omega
  simp [decode_arith, hop, hle]

/-! ### A field as its digits -/

/-- Bit `j` of a number given by `w` binary digits is the digit `j` places from the last. -/
theorem bigEndian_testBit (d : Nat → Bool) (w j : Nat) :
    (Spec.bigEndian d w).testBit j = (decide (j < w) && d (w - 1 - j)) := by
  induction w generalizing j with
  | zero => simp [Spec.bigEndian]
  | succ w ih =>
    rw [Spec.bigEndian, ← Nat.bit_val]
    cases j with
    | zero => simp
    | succ j =>
      rw [Nat.testBit_bit_succ, ih, show w + 1 - 1 - (j + 1) = w - 1 - j by omega]
      simp

namespace Machine

/-- R10, R111: `bfx(p, w)` has the frame bits from `p` on as its digits. -/
theorem bfx_eq_bigEndian (s : State) {p w : Nat} (h : p + w ≤ 88) :
    s.bfx p w = Spec.bigEndian (fun j => Spec.frameBit s (p + j)) w := by
  refine Nat.eq_of_testBit_eq fun j => ?_
  rw [bfx_testBit s h, bigEndian_testBit]
  by_cases hj : j < w
  · rw [show p + w - 1 - j = p + (w - 1 - j) by omega]
    rfl
  · simp [hj]

/-- R114, R115: two digits give at most 15 * 10 + 15, whatever the byte. -/
theorem bcd_le (s : State) (b t : Nat) : s.bcd b t ≤ 165 := by
  have htens : (s.fbByte b).toNat / 16 % 2 ^ t ≤ (s.fbByte b).toNat / 16 := Nat.mod_le _ _
  have hbyte : (s.fbByte b).toNat < 2 ^ 8 := (s.fbByte b).isLt
  rw [bcd_eq_div]
  omega

/-! ### Refusal -/

/-- R74: a field that ends after frame bit 87 is out of range. -/
theorem operandError_bfx {p w : Nat} (h : 88 < p + w) : operandError (.bfx p w) = some .bfxRange := if_pos h

/-- R75: a byte above 10 is none of FB, whatever the tens width. -/
theorem operandError_bcd {b : Nat} (t : Nat) (h : 10 < b) : operandError (.bcd b t) = some .bcdByte := if_pos h

/-- R151, R152: a command whose operand check fails is refused with its error. -/
theorem exec_refused {i : Instr} {e : CmdError} (s : State) (h : operandError i = some e) :
    exec i s = .next (s.withError e) := by
  obtain ⟨t, ht⟩ := exec_next i s
  rcases exec_status ht with ⟨e', he, rfl⟩ | ⟨hnone, -⟩
  · obtain rfl : e = e' := Option.some_inj.1 (h.symm.trans he)
    exact ht
  · cases h.symm.trans hnone

end Machine

/-! ### The obligations -/

/-- Settles O27: a legal field's number has its frame bits as digits, and any other is refused by its operand check. -/
theorem bfxResult : Obligations.BfxResult := by
  intro p w s hp h1 hw
  refine ⟨decode_bfx hp h1 hw, fun h => ?_, fun h => exec_refused s (operandError_bfx h),
    fun v hop hr => decode_rsvdBits_formatX hop hr⟩
  rw [exec_bfx s h, bfx_eq_bigEndian s h]
  rfl

/-- Settles O29: a byte of FB gives its two digits, unchecked, and any other is refused by its operand check. -/
theorem bcdResult : Obligations.BcdResult := by
  intro b t s hb h1 ht
  refine ⟨decode_bcd hb h1 ht, fun h => ?_, fun h => exec_refused s (operandError_bcd t h),
    fun w hop hr => decode_rsvdBits_formatD hop hr⟩
  rw [← bcd_eq_div, exec_bcd t s h]
  exact ⟨rfl, bcd_le s b t⟩

/-- Settles O3: each word is the one its command encodes to. -/
theorem specWordsDecodeToTheirCommands : Obligations.SpecWordsDecodeToTheirCommands := by
  refine ⟨?_, ?_, ?_, ?_, ?_, ?_, ?_, ?_, ?_⟩ <;> exact decode_of_encode_eq rfl rfl

end Sys2Proof

/-! SUPPORT. The named fields (42_fields.md): a frame field as the nibbles and bytes RS takes it from, how a FIELD command is
read off its field, and the 21 fields by RS's formulas. -/

namespace Sys2Proof

open Machine

namespace Machine

/-! ### A frame field by nibbles and bytes (R111) -/

/-- A field of `n` bits is a number of `n` bits. -/
theorem bfx_lt (s : State) (p n : Nat) : s.bfx p n < 2 ^ n := by
  rw [bfx_eq_div]
  exact Nat.mod_lt _ (Nat.two_pow_pos n)

/-- Two digits, the tens digit `t` bits wide: at most the two largest. -/
theorem bcd_le_digits (s : State) (b t : Nat) : s.bcd b t ≤ (2 ^ t - 1) * 10 + 15 := by
  have htens : (s.fbByte b).toNat / 16 % 2 ^ t < 2 ^ t := Nat.mod_lt _ (Nat.two_pow_pos t)
  rw [bcd_eq_div]
  omega

/-- R10: a field inside one byte, `o` bits below the byte's top. -/
theorem bfx_within_byte (s : State) {k o w : Nat} (hk : k ≤ 10) (h : o + w ≤ 8) :
    s.bfx (8 * k + o) w = (s.fbByte k).toNat / 2 ^ (8 - o - w) % 2 ^ w := by
  refine Nat.eq_of_testBit_eq fun j => ?_
  rw [bfx_testBit s (by omega), Nat.testBit_mod_two_pow, Nat.testBit_div_two_pow]
  by_cases hj : j < w
  · rw [show (8 * k + o + w - 1 - j) / 8 = k by omega, show 7 - (8 * k + o + w - 1 - j) % 8 = j + (8 - o - w) by omega]
    rfl
  · simp [hj]

/-- A field split in two, the upper `v` bits above the lower `w`. -/
theorem bfx_append (s : State) {p v w : Nat} (h : p + v + w ≤ 88) :
    s.bfx p (v + w) = s.bfx p v * 2 ^ w + s.bfx (p + v) w := by
  have hv : 88 - p - v = 88 - p - (v + w) + w := by omega
  have hw : 88 - (p + v) - w = 88 - p - (v + w) := by omega
  simp only [bfx_eq_div]
  rw [hv, hw]
  generalize 88 - p - (v + w) = below
  rw [Nat.add_comm v, Nat.pow_add, Nat.mod_mul, Nat.pow_add, ← Nat.div_div_eq_div_mul, Nat.add_comm,
    Nat.mul_comm (2 ^ w)]

/-- A whole byte. -/
theorem bfx_byte (s : State) {k : Nat} (hk : k ≤ 10) : s.bfx (8 * k) 8 = (s.fbByte k).toNat := by
  have h : s.bfx (8 * k) 8 = (s.fbByte k).toNat / 1 % 256 := bfx_within_byte s (o := 0) hk (by decide)
  have hlt := (s.fbByte k).isLt
  omega

/-- The high nibble of a byte. -/
theorem bfx_highNibble (s : State) {k : Nat} (hk : k ≤ 10) : s.bfx (8 * k) 4 = (s.fbByte k).toNat / 16 := by
  have h : s.bfx (8 * k) 4 = (s.fbByte k).toNat / 16 % 16 := bfx_within_byte s (o := 0) hk (by decide)
  have hlt := (s.fbByte k).isLt
  omega

/-- The low nibble of a byte. -/
theorem bfx_lowNibble (s : State) {k : Nat} (hk : k ≤ 10) : s.bfx (8 * k + 4) 4 = (s.fbByte k).toNat % 16 := by
  have h : s.bfx (8 * k + 4) 4 = (s.fbByte k).toNat / 1 % 16 := bfx_within_byte s hk (by decide)
  omega

/-- The low nibble of a byte above the high nibble of the next. -/
theorem bfx_nibble_nibble (s : State) {k : Nat} (hk : k ≤ 9) :
    s.bfx (8 * k + 4) 8 = (s.fbByte k).toNat % 16 * 16 + (s.fbByte (k + 1)).toNat / 16 := by
  rw [bfx_append s (v := 4) (w := 4) (by omega), bfx_lowNibble s (by omega), show 8 * k + 4 + 4 = 8 * (k + 1) by omega,
    bfx_highNibble s (by omega)]
  rfl

/-- The low nibble of a byte above the next byte. -/
theorem bfx_nibble_byte (s : State) {k : Nat} (hk : k ≤ 9) :
    s.bfx (8 * k + 4) 12 = (s.fbByte k).toNat % 16 * 256 + (s.fbByte (k + 1)).toNat := by
  rw [bfx_append s (v := 4) (w := 8) (by omega), bfx_lowNibble s (by omega), show 8 * k + 4 + 4 = 8 * (k + 1) by omega,
    bfx_byte s (by omega)]
  rfl

/-- Three bytes, the first most significant. -/
theorem bfx_three_bytes (s : State) {k : Nat} (hk : k ≤ 8) :
    s.bfx (8 * k) 24 =
      (s.fbByte k).toNat * 65536 + (s.fbByte (k + 1)).toNat * 256 + (s.fbByte (k + 2)).toNat := by
  rw [bfx_append s (v := 8) (w := 16) (by omega), show 8 * k + 8 = 8 * (k + 1) by omega,
    bfx_append s (v := 8) (w := 8) (by omega), show 8 * (k + 1) + 8 = 8 * (k + 2) by omega, bfx_byte s (by omega),
    bfx_byte s (by omega), bfx_byte s (by omega)]
  omega

end Machine

/-! ### RS's shifts and masks in plain arithmetic -/

/-- The mask of the low nibble. -/
theorem and_lowNibble (n : Nat) : n &&& 0x0F = n % 16 := Nat.and_two_pow_sub_one_eq_mod n 4

/-- The mask of the high nibble, moved down. -/
theorem and_highNibble_shiftRight (n : Nat) : (n &&& 0xF0) >>> 4 = n >>> 4 &&& 0x0F := Nat.shiftRight_and_distrib

/-- A low nibble moved up, above a high nibble moved down. -/
theorem nibble_or_nibble (a b : Byte) :
    (a.toNat <<< 4 &&& 0xF0) ||| (b.toNat >>> 4) = a.toNat % 16 * 16 + b.toNat / 16 := by
  have hup : a.toNat <<< 4 &&& 0xF0 = (a.toNat &&& 0x0F) <<< 4 := (Nat.shiftLeft_and_distrib (b := 0x0F)).symm
  have hdown : b.toNat >>> 4 < 2 ^ 4 := by have := b.isLt; omega
  rw [hup, ← Nat.shiftLeft_add_eq_or_of_lt hdown, and_lowNibble]
  omega

/-- A low nibble above a byte, joined by OR. -/
theorem nibble_or_byte (a b : Byte) : ((a.toNat &&& 0x0F) <<< 8) ||| b.toNat = a.toNat % 16 * 256 + b.toNat := by
  rw [← Nat.shiftLeft_add_eq_or_of_lt b.isLt, and_lowNibble]
  omega

/-- A low nibble above a byte, as the low 12 bits of two bytes. -/
theorem two_bytes_and_low12 (a b : Byte) :
    ((a.toNat <<< 8) + b.toNat) &&& 0x0FFF = a.toNat % 16 * 256 + b.toNat := by
  have hlt := b.isLt
  have hmask : ((a.toNat <<< 8) + b.toNat) &&& 0x0FFF = ((a.toNat <<< 8) + b.toNat) % 4096 :=
    Nat.and_two_pow_sub_one_eq_mod _ 12
  omega

/-- Three bytes joined by OR. -/
theorem three_bytes_or (a b c : Byte) :
    (a.toNat <<< 16) ||| (b.toNat <<< 8) ||| c.toNat = a.toNat * 65536 + b.toNat * 256 + c.toNat := by
  have hc := c.isLt
  have hlow : b.toNat <<< 8 + c.toNat < 2 ^ 16 := by have := b.isLt; omega
  rw [Nat.or_assoc, ← Nat.shiftLeft_add_eq_or_of_lt hc, ← Nat.shiftLeft_add_eq_or_of_lt hlow]
  omega

namespace Machine

/-! ### The model's fields by RS's formulas -/

/-- RS's reading of DEVICE_ID and UV_SENSOR_ID (R121, R137). -/
theorem bfx_eq_nibble_or_nibble (s : State) : s.bfx 12 8 =
    ((s.fbByte 1).toNat <<< 4 &&& 0xF0) ||| ((s.fbByte 2).toNat >>> 4) :=
  (bfx_nibble_nibble s (k := 1) (by decide)).trans (nibble_or_nibble _ _).symm

/-- RS's reading of the raw temperature (R122). -/
theorem bfx_eq_two_bytes_and_low12 (s : State) : s.bfx 20 12 =
    (((s.fbByte 2).toNat <<< 8) + (s.fbByte 3).toNat) &&& 0x0FFF :=
  (bfx_nibble_byte s (k := 2) (by decide)).trans (two_bytes_and_low12 _ _).symm

/-- RS's reading of the rain ticks (R127). -/
theorem bfx_eq_nibble_or_byte (s : State) : s.bfx 60 12 =
    (((s.fbByte 7).toNat &&& 0x0F) <<< 8) ||| (s.fbByte 8).toNat :=
  (bfx_nibble_byte s (k := 7) (by decide)).trans (nibble_or_byte _ _).symm

/-- RS's reading of the light count (R140). -/
theorem bfx_eq_three_bytes_or (s : State) : s.bfx 32 24 =
    ((s.fbByte 4).toNat <<< 16) ||| ((s.fbByte 5).toNat <<< 8) ||| (s.fbByte 6).toNat :=
  (bfx_three_bytes s (k := 4) (by decide)).trans (three_bytes_or _ _ _).symm

/-- RS's reading of a low nibble (R128, R136, R139). -/
theorem bfx_eq_and_lowNibble (s : State) {k : Nat} (hk : k ≤ 10) :
    s.bfx (8 * k + 4) 4 = (s.fbByte k).toNat &&& 0x0F :=
  (bfx_lowNibble s hk).trans (and_lowNibble _).symm

/-- RS's reading of a high nibble (R129). -/
theorem bfx_eq_shiftRight (s : State) {k : Nat} (hk : k ≤ 10) : s.bfx (8 * k) 4 = (s.fbByte k).toNat >>> 4 :=
  (bfx_highNibble s hk).trans (Nat.shiftRight_eq_div_pow _ 4).symm

/-- RS's reading of two whole BCD digits (R131 to R133, R135). -/
theorem bcd_four_eq (s : State) (b : Nat) : s.bcd b 4 =
    (((s.fbByte b).toNat &&& 0xF0) >>> 4) * 10 + ((s.fbByte b).toNat &&& 0x0F) := by
  rw [and_highNibble_shiftRight]
  rfl

/-- R141: the message code as a case split, the tag's three values first. -/
theorem messageCode_eq (n : Nat) :
    messageCode n = if n = 0xA then 1 else if n = 0xB then 2 else if n = 0x7 then 3 else 0 := by
  unfold messageCode
  split <;> simp_all

/-! ### What a FIELD command leaves (R120) -/

/-- A FIELD command writes its field to RESULT and completes. -/
theorem finishField_eq (v : Word) (s : State) : finishField v s = .next (Spec.withResult s v) := rfl

/-- A number in RESULT is itself in two's complement. -/
theorem natResult_eq_ofInt (n : Nat) : natResult n = BitVec.ofInt 32 n := (BitVec.ofInt_natCast 32 n).symm

/-- A test in RESULT is the number 1 or 0. -/
theorem boolResult_eq_natResult (b : Bool) : boolResult b = natResult b.toNat := by cases b <;> rfl

end Machine

/-- A FIELD command follows RS when it finishes with RS's formula and the formula is in range: its word decodes to it because
it is the command's own. -/
theorem fieldCommand_of_finishField {i : Instr} {w : Word} {f : (Nat → Nat) → Int} {lo hi : Int}
    (hwf : i.wellFormed = true) (hw : encode i = w)
    (hx : ∀ s : State, exec i s = finishField (BitVec.ofInt 32 (f fun k => (s.fbByte k).toNat)) s)
    (hf : ∀ s : State, lo ≤ f (fun k => (s.fbByte k).toNat) ∧ f (fun k => (s.fbByte k).toNat) ≤ hi) :
    Spec.FieldCommand i w f lo hi :=
  ⟨decode_of_encode_eq hwf hw, hw, fun s => ⟨(hx s).trans (finishField_eq _ s), hf s⟩⟩

/-- A command whose field is a number `v`. -/
theorem fieldCommand_of_natResult {i : Instr} {w : Word} {f : (Nat → Nat) → Int} {lo hi : Int} (v : State → Nat)
    (hwf : i.wellFormed = true) (hw : encode i = w) (hx : ∀ s : State, exec i s = finishField (natResult (v s)) s)
    (hf : ∀ s : State, f (fun k => (s.fbByte k).toNat) = v s) (hrange : ∀ s : State, lo ≤ v s ∧ v s ≤ hi) :
    Spec.FieldCommand i w f lo hi :=
  fieldCommand_of_finishField hwf hw (fun s => by rw [hx, hf, natResult_eq_ofInt]) fun s => by rw [hf]; exact hrange s

/-- A command whose field is `bfx(p, n)`. -/
theorem fieldCommand_of_bfx {i : Instr} {w : Word} {f : (Nat → Nat) → Nat} {hi : Int} (p n : Nat)
    (hwf : i.wellFormed = true) (hw : encode i = w)
    (hx : ∀ s : State, exec i s = finishField (natResult (s.bfx p n)) s)
    (hf : ∀ s : State, s.bfx p n = f fun k => (s.fbByte k).toNat) (hhi : hi = (2 ^ n - 1 : Nat)) :
    Spec.FieldCommand i w (fun B => f B) 0 hi := by
  refine fieldCommand_of_natResult (·.bfx p n) hwf hw hx (fun s => by rw [hf]) fun s => ?_
  have hlt := bfx_lt s p n
  omega

/-- A command whose field is `bcd(b, t)`. -/
theorem fieldCommand_of_bcd {i : Instr} {w : Word} {f : (Nat → Nat) → Nat} {hi : Int} (b t : Nat)
    (hwf : i.wellFormed = true) (hw : encode i = w)
    (hx : ∀ s : State, exec i s = finishField (natResult (s.bcd b t)) s)
    (hf : ∀ s : State, s.bcd b t = f fun k => (s.fbByte k).toNat) (hhi : hi = ((2 ^ t - 1) * 10 + 15 : Nat)) :
    Spec.FieldCommand i w (fun B => f B) 0 hi := by
  refine fieldCommand_of_natResult (·.bcd b t) hwf hw hx (fun s => by rw [hf]) fun s => ?_
  have hle := bcd_le_digits s b t
  omega

/-- A command whose field is the test `b`. -/
theorem fieldCommand_of_boolResult {i : Instr} {w : Word} {P : (Nat → Nat) → Prop} [DecidablePred P] (b : State → Bool)
    (hwf : i.wellFormed = true) (hw : encode i = w) (hx : ∀ s : State, exec i s = finishField (boolResult (b s)) s)
    (hb : ∀ s : State, b s = true ↔ P fun k => (s.fbByte k).toNat) :
    Spec.FieldCommand i w (fun B => if P B then 1 else 0) 0 1 := by
  refine fieldCommand_of_natResult (fun s => (b s).toNat) hwf hw (fun s => ?_) (fun s => ?_) fun s => ?_
  · rw [hx, boolResult_eq_natResult]
  · simp only [← hb]
    cases b s <;> rfl
  · cases b s <;> decide

/-! ### The obligations -/

/-- Settles O30: each Weather field is the frame field RS's formula cuts out; TEMP_TENTHS is TEMP_RAW less 400. -/
theorem weatherFieldsFollowRS : Obligations.WeatherFieldsFollowRS := by
  refine ⟨?deviceId, ?tempRaw, ?tempTenths, ?humidity, ?windAvg, ?windGust, ?rain, ?windDir, ?batteryOk⟩
  case deviceId => exact fieldCommand_of_bfx 12 8 rfl rfl (fun _ => rfl) bfx_eq_nibble_or_nibble rfl
  case tempRaw => exact fieldCommand_of_bfx 20 12 rfl rfl (fun _ => rfl) bfx_eq_two_bytes_and_low12 rfl
  case tempTenths =>
    refine fieldCommand_of_finishField rfl rfl (fun s => ?_) fun s => ?_
    · rw [← bfx_eq_two_bytes_and_low12]
      rfl
    · have hlt := bfx_lt s 20 12
      rw [← bfx_eq_two_bytes_and_low12]
      omega
  case humidity => exact fieldCommand_of_bfx 32 8 rfl rfl (fun _ => rfl) (fun s => bfx_byte s (k := 4) (by decide)) rfl
  case windAvg => exact fieldCommand_of_bfx 40 8 rfl rfl (fun _ => rfl) (fun s => bfx_byte s (k := 5) (by decide)) rfl
  case windGust => exact fieldCommand_of_bfx 48 8 rfl rfl (fun _ => rfl) (fun s => bfx_byte s (k := 6) (by decide)) rfl
  case rain => exact fieldCommand_of_bfx 60 12 rfl rfl (fun _ => rfl) bfx_eq_nibble_or_byte rfl
  case windDir =>
    exact fieldCommand_of_bfx 76 4 rfl rfl (fun _ => rfl) (fun s => bfx_eq_and_lowNibble s (k := 9) (by decide)) rfl
  case batteryOk =>
    refine fieldCommand_of_boolResult (·.bfx 72 4 != 1) rfl rfl (fun _ => rfl) fun s => ?_
    rw [bne_iff_ne, bfx_eq_shiftRight s (k := 9) (by decide)]

/-- Settles O31: each clock field is the two digits RS's formula reads, and SIGNAL_DCF77 compares a low nibble. -/
theorem dateTimeFieldsFollowRS : Obligations.DateTimeFieldsFollowRS := by
  refine ⟨?hours, ?minutes, ?seconds, ?year, ?month, ?day, ?signalDcf77⟩
  case hours => exact fieldCommand_of_bcd 3 2 rfl rfl (fun _ => rfl) (fun _ => rfl) rfl
  case minutes => exact fieldCommand_of_bcd 4 4 rfl rfl (fun _ => rfl) (fun s => bcd_four_eq s 4) rfl
  case seconds => exact fieldCommand_of_bcd 5 4 rfl rfl (fun _ => rfl) (fun s => bcd_four_eq s 5) rfl
  case year =>
    refine fieldCommand_of_natResult (2000 + ·.bcd 6 4) rfl rfl (fun _ => rfl) (fun s => ?_) fun s => ?_
    · rw [← bcd_four_eq, Int.add_comm]
      rfl
    · have hle := bcd_le s 6 4
      omega
  case month => exact fieldCommand_of_bcd 7 1 rfl rfl (fun _ => rfl) (fun _ => rfl) rfl
  case day => exact fieldCommand_of_bcd 8 4 rfl rfl (fun _ => rfl) (fun s => bcd_four_eq s 8) rfl
  case signalDcf77 =>
    refine fieldCommand_of_boolResult (·.bfx 20 4 == 10) rfl rfl (fun _ => rfl) fun s => ?_
    rw [beq_iff_eq, bfx_eq_and_lowNibble s (k := 2) (by decide)]

/-- Settles O32: each UvLight field is the frame field RS's formula cuts out, and UV_STATUS_OK compares a byte. -/
theorem uvLightFieldsFollowRS : Obligations.UvLightFieldsFollowRS := by
  refine ⟨?sensorId, ?statusOk, ?index, ?lightRaw⟩
  case sensorId => exact fieldCommand_of_bfx 12 8 rfl rfl (fun _ => rfl) bfx_eq_nibble_or_nibble rfl
  case statusOk =>
    refine fieldCommand_of_boolResult (·.bfx 24 8 == 85) rfl rfl (fun _ => rfl) fun s => ?_
    rw [beq_iff_eq, bfx_byte s (k := 3) (by decide)]
  case index =>
    exact fieldCommand_of_bfx 20 4 rfl rfl (fun _ => rfl) (fun s => bfx_eq_and_lowNibble s (k := 2) (by decide)) rfl
  case lightRaw => exact fieldCommand_of_bfx 32 24 rfl rfl (fun _ => rfl) bfx_eq_three_bytes_or rfl

/-- Settles O33: the tag nibble is the high nibble of `FB[1]`, and its code is RS's case split. -/
theorem messageTypeFollowsRS : Obligations.MessageTypeFollowsRS := by
  refine fieldCommand_of_natResult (fun s => messageCode (s.bfx 8 4)) rfl rfl (fun _ => rfl) (fun s => ?_) fun s => ?_
  · rw [messageCode_eq, bfx_highNibble s (k := 1) (by decide)]
    push_cast
    rfl
  · rw [messageCode_eq]
    split_ifs <;> decide

end Sys2Proof

/-! SUPPORT. Exceptions (60_exceptions.md): which pending events can be served, and what an earlier error does to a
command. -/

namespace Sys2Proof

open Machine

namespace Machine

/-- R52, R182: an admitted event, when it is the oldest pending one, is served. -/
theorem step_next_of_admitted {s : State} {e : HostEvent} {rest : List HostEvent} (hp : s.pending = e :: rest)
    (he : e.admitted = true) : ∃ t, step s = .next t := by
  rcases (admitted_iff e).1 he with rfl | ⟨off, rfl, h4, hle⟩ | ⟨off, v, rfl, h4, hle⟩
  · exact ⟨_, step_event hp⟩
  · exact ⟨_, step_read hp h4 hle⟩
  · rw [step_write hp h4 hle]
    exact writeReg_next (regAt off) v (s.accept rest)

/-- R52, R53: an event that a step serves is an admitted one. -/
theorem admitted_of_step_next {s t : State} {e : HostEvent} {rest : List HostEvent} (hp : s.pending = e :: rest)
    (h : step s = .next t) : e.admitted = true := by
  rw [admitted_iff]
  rcases step_cases h with ⟨hp', -⟩ | ⟨_, hp', -⟩ | ⟨off, _, hp', h4, hle, -⟩ | ⟨off, v, _, hp', h4, hle, -⟩ <;>
    (rw [hp] at hp'; cases hp')
  · exact .inl rfl
  · exact .inr (.inl ⟨off, rfl, h4, hle⟩)
  · exact .inr (.inr ⟨off, v, rfl, h4, hle⟩)

end Machine

/-! ### The obligations -/

/-- Settles O8: with nothing pending the state is held, and a pending event is served exactly when it is admitted. -/
theorem onlyUnadmittedAccessesStop : Obligations.OnlyUnadmittedAccessesStop := by
  refine fun s => ⟨fun ⟨t, ht⟩ e rest hp => admitted_of_step_next hp ht, fun h => ?_⟩
  rcases hp : s.pending with _ | ⟨e, rest⟩
  · exact ⟨s, step_idle hp⟩
  · exact step_next_of_admitted hp (h e rest hp)

/-- Settles O37: a refused command overwrites ERR and ERRCODE, and so does one that completes, whose other writes come
from POLY, INIT and FB only. -/
theorem earlierErrorDoesNotMatter : Obligations.EarlierErrorDoesNotMatter := by
  intro i s e c
  rcases hop : operandError i with _ | err
  · rcases exec_readSet (s := { s with err := e, errcode := c }) (t := s) hop rfl rfl (fun _ _ => rfl) with
      ⟨crc, h1, h2⟩ | ⟨crc, b, h1, h2⟩ | ⟨v, h1, h2⟩ <;> exact h1.trans h2.symm
  · exact (exec_refused _ hop).trans (exec_refused s hop).symm

end Sys2Proof

/-! SUPPORT. Reset and a whole host program (70_reset_and_hazards.md): the state a reset event leaves, and a run
that serves one pending event in each step. -/

namespace Sys2Proof

open Machine

namespace Machine

/-! ### Reset -/

/-- R170: a pending reset event is served. -/
theorem step_reset {s : State} {rest : List HostEvent} (hp : s.pending = .reset :: rest) :
    step s = .next (s.accept rest).afterReset := step_event hp

/-- The reset state is itself one that a reset event leaves. -/
theorem afterReset_reset : State.reset.afterReset = State.reset := rfl

/-- R34, R171: a reset event leaves no FB byte marked written. -/
theorem fbWritten_afterReset (s : State) (i : Nat) : s.afterReset.fbWritten i = false := fbWritten_reset i

/-! ### One event of a host program -/

/-- Does the event return a value to the host? -/
def HostEvent.isRead : HostEvent → Bool
  | .read _ _ => true
  | .write _ _ _ => false
  | .reset => false

/-- Serving an event leaves the events after it pending. -/
theorem Serves.pending_eq {a t : State} {e : HostEvent} (h : Serves a e t) : t.pending = a.pending := by
  cases h with
  | command w hw =>
    obtain ⟨-, -, -, -, hpending, -, -⟩ := executeWord_keeps hw
    exact hpending
  | _ => rfl

/-- Serving an event adds one value to those the host has read if it is a read, and none otherwise. -/
theorem Serves.reads_eq {a t : State} {e : HostEvent} (h : Serves a e t) :
    ∃ vs, t.reads = a.reads ++ vs ∧ vs.length = if e.isRead then 1 else 0 := by
  cases h with
  | read off => exact ⟨[a.readReg (regAt off)], rfl, rfl⟩
  | command w hw =>
    obtain ⟨-, -, -, -, -, hreads, -⟩ := executeWord_keeps hw
    exact ⟨[], hreads.trans (List.append_nil _).symm, rfl⟩
  | _ => exact ⟨[], (List.append_nil _).symm, rfl⟩

/-! ### A whole host program -/

/-- A run begins with the step of its first state, on any machine. -/
theorem run_succ_of_step {M : Host.Core} {s t : M.State} (h : M.step s = .next t) (k : Nat) :
    M.run (k + 1) s = M.run k t := by
  rw [Host.Core.run, h]

/-- R182: a host program of admitted events is served to its end, and each of its reads adds one value. -/
theorem run_hostProgram {es : List HostEvent} {s : State} (hp : s.pending = es)
    (hadm : ∀ e ∈ es, e.admitted = true) :
    ∃ t vs, core.run es.length s = .next t ∧ t.pending = [] ∧ t.reads = s.reads ++ vs ∧
      vs.length = es.countP HostEvent.isRead := by
  induction es generalizing s with
  | nil => exact ⟨s, [], rfl, hp, (List.append_nil _).symm, rfl⟩
  | cons e rest ih =>
    rw [List.forall_mem_cons] at hadm
    obtain ⟨hadm_e, hadm_rest⟩ := hadm
    obtain ⟨u, hu⟩ := step_next_of_admitted hp hadm_e
    have hserves := serves_of_step hp hu
    obtain ⟨vs, hvs, hlen⟩ := hserves.reads_eq
    obtain ⟨t, ws, hrun, hdone, hws, hlen'⟩ := ih hserves.pending_eq hadm_rest
    refine ⟨t, vs ++ ws, (run_succ_of_step (M := core) hu _).trans hrun, hdone, ?_, ?_⟩
    · rw [hws, hvs, accept_reads, List.append_assoc]
    · rw [List.length_append, hlen, hlen', List.countP_cons, Nat.add_comm]

end Machine

/-! ### The obligations -/

/-- Settles O10: each step serves the oldest pending event, which adds a value if it is a read (`run_hostProgram`, by
induction on the events). -/
theorem hostProgramRunsToItsEnd : Obligations.HostProgramRunsToItsEnd := by
  intro s hadm
  obtain ⟨t, vs, hrun, hdone, hreads, hlen⟩ := run_hostProgram rfl hadm
  refine ⟨t, hrun, hdone, ⟨vs, hreads.symm⟩, ?_⟩
  rw [hreads, List.length_append, hlen, List.countP_eq_length_filter]
  congr 2
  exact List.filter_congr fun e _ => by cases e <;> rfl

/-- Settles O18: both are the state a reset event leaves, which takes every register from `State.reset`. -/
theorem resetLeavesR171 : Obligations.ResetLeavesR171 := by
  intro r hr
  obtain ⟨a, rfl⟩ : ∃ a : State, r = a.afterReset := by
    rcases hr with rfl | ⟨s, rest, hp, h⟩
    · exact ⟨State.reset, afterReset_reset.symm⟩
    · rw [step_reset hp] at h
      cases h
      exact ⟨s.accept rest, rfl⟩
  exact ⟨rfl, rfl, rfl, rfl, rfl, rfl, rfl, rfl, statusWord_eq a.afterReset, crcCfgWord_eq 0xFF#8 0x31#8,
    rfl, fbWritten_afterReset a⟩

/-- Settles O19: reset takes nothing of the host's but the event itself. -/
theorem resetEventCompletes : Obligations.ResetEventCompletes := fun s rest hp =>
  ⟨(s.accept rest).afterReset, step_reset hp, rfl, rfl⟩

/-- Settles O44: no command was written since reset, and VALID = 0 describes every length. -/
theorem resetMeetsInvariants : Obligations.ResetMeetsInvariants :=
  ⟨by decide, .inr ⟨rfl, rfl⟩, rfl, fun _ => validDescribes_of_invalid rfl⟩

end Sys2Proof

/-! SUPPORT. The CRC as polynomial arithmetic over GF(2) (40_crc8.md R105, 10_state.md R27): schoolbook division in the
terms of the CRC register, and what flipping one bit of a frame does to its CRC. -/

namespace Sys2Proof

open Machine

/-! ### Schoolbook division -/

/-- The remainder is linear. -/
theorem polyRem_xor (g k v w : Nat) : Spec.polyRem g k (v ^^^ w) = Spec.polyRem g k v ^^^ Spec.polyRem g k w := by
  induction k generalizing v w with
  | zero => rfl
  | succ k ih =>
    simp only [Spec.polyRem, Nat.testBit_xor]
    cases v.testBit (k + 8) <;> cases w.testBit (k + 8) <;>
      simp [ih, Nat.xor_comm, Nat.xor_left_comm]

/-- Division from `j` places higher goes on where the division of the unshifted polynomial ends. -/
theorem polyRem_shiftLeft (g k j v : Nat) :
    Spec.polyRem g (k + j) (v <<< j) = Spec.polyRem g j (Spec.polyRem g k v <<< j) := by
  induction k generalizing v with
  | zero => rw [Nat.zero_add, Spec.polyRem]
  | succ k ih =>
    have hbit : (v <<< j).testBit (k + j + 8) = v.testBit (k + 8) := by
      rw [Nat.testBit_shiftLeft, decide_eq_true (by omega), Bool.true_and, show k + j + 8 - j = k + 8 by omega]
    rw [show k + 1 + j = k + j + 1 by omega, Spec.polyRem, Spec.polyRem, hbit]
    split
    · rw [Nat.shiftLeft_add, ← Nat.shiftLeft_xor_distrib, ih]
    · exact ih v

/-- Leading zeros do not take part in the division. -/
theorem polyRem_add_of_lt (g j : Nat) {k v : Nat} (h : v < 2 ^ (k + 8)) :
    Spec.polyRem g (k + j) v = Spec.polyRem g k v := by
  induction j with
  | zero => rfl
  | succ j ih =>
    have hbit : v.testBit (k + j + 8) = false :=
      Nat.testBit_lt_two_pow (h.trans_le (Nat.pow_le_pow_right (by decide) (by omega)))
    rw [← Nat.add_assoc, Spec.polyRem, hbit]
    exact ih

/-- A byte below the number `m` is added to it by XOR. -/
theorem mul_add_byte_eq_xor (m : Nat) (b : Byte) : m * 256 + b.toNat = m <<< 8 ^^^ b.toNat := by
  refine Nat.eq_of_testBit_eq fun j => ?_
  rw [Nat.mul_comm, Nat.testBit_two_pow_mul_add (i := 8) m b.isLt, Nat.testBit_xor, Nat.testBit_shiftLeft]
  by_cases hj : j < 8
  · simp [hj, show ¬ 8 ≤ j by omega]
  · have hb : b.toNat.testBit j = false := BitVec.getLsbD_of_ge b j (by omega)
    simp [hj, hb, show 8 ≤ j by omega]

/-- R27: one shift of the CRC register is one place of division by G(x) = x^8 + p(x). -/
theorem polyRem_one (poly c : Byte) : Spec.polyRem (256 + poly.toNat) 1 (c.toNat <<< 1) = (crcShift poly c).toNat := by
  have hc := c.isLt
  have hbit : (c.toNat <<< 1).testBit 8 = c.getLsbD 7 := by simp [Nat.testBit_shiftLeft, BitVec.getLsbD]
  have hmsb : c.getLsbD 7 = decide (128 ≤ c.toNat) := BitVec.msb_eq_decide c
  have hshl : (c <<< 1).toNat = 2 * c.toNat % 256 := by simp [Nat.shiftLeft_eq, Nat.mul_comm]
  simp only [Spec.polyRem, crcShift, Nat.zero_add, hbit]
  by_cases h : 128 ≤ c.toNat
  · have htop : c.toNat <<< 1 = 1 <<< 8 ^^^ (c <<< 1).toNat := by
      rw [← mul_add_byte_eq_xor, hshl, Nat.shiftLeft_eq]
      omega
    have hg : 256 + poly.toNat = 1 <<< 8 ^^^ poly.toNat := mul_add_byte_eq_xor 1 poly
    simp only [hmsb, h, decide_true, if_true, Nat.shiftLeft_zero, htop, hg, BitVec.toNat_xor]
    rw [Nat.xor_comm (1 <<< 8), Nat.xor_assoc, Nat.xor_xor_cancel_left]
  · simp only [hmsb, h, decide_false, Bool.false_eq_true, if_false, hshl, Nat.shiftLeft_eq]
    omega

/-- R27: `k` shifts of the CRC register multiply it by x^k modulo G(x). -/
theorem polyRem_shiftLeft_byte (poly : Byte) (k : Nat) (c : Byte) :
    Spec.polyRem (256 + poly.toNat) k (c.toNat <<< k) = (crcShifts poly k c).toNat := by
  induction k generalizing c with
  | zero => rfl
  | succ k ih => rw [Nat.add_comm k, Nat.shiftLeft_add, polyRem_shiftLeft, polyRem_one, ih, Nat.add_comm 1, crcShifts]

/-- R27: the CRC is the remainder of the message times x^8, with INIT added at the message's top. -/
theorem polyRem_message (poly init : Byte) (bytes : List Byte) :
    Spec.polyRem (256 + poly.toNat) (8 * bytes.length)
      ((bytes.foldl (fun m (b : Byte) => m * 256 + b.toNat) 0 <<< 8) ^^^ (init.toNat <<< (8 * bytes.length))) =
      (crc8 poly init bytes).toNat := by
  induction bytes using List.reverseRecOn with
  | nil => simp [Spec.polyRem, crc8]
  | append_singleton bytes b ih =>
    rw [crc8_append, List.foldl_append, List.length_append, List.length_singleton, Nat.mul_add]
    simp only [List.foldl_cons, List.foldl_nil]
    generalize bytes.foldl (fun m (b : Byte) => m * 256 + b.toNat) 0 = m at *
    have hbyte : Spec.polyRem (256 + poly.toNat) (8 * bytes.length) b.toNat = b.toNat := by
      rw [← Nat.zero_add (8 * bytes.length), polyRem_add_of_lt _ _ b.isLt, Spec.polyRem]
    have hsum : (m * 256 + b.toNat) <<< 8 ^^^ init.toNat <<< (8 * bytes.length + 8 * 1) =
        ((m <<< 8 ^^^ init.toNat <<< (8 * bytes.length)) ^^^ b.toNat) <<< 8 := by
      simp only [mul_add_byte_eq_xor, Nat.shiftLeft_xor_distrib, Nat.shiftLeft_add, Nat.mul_one]
      ac_rfl
    calc Spec.polyRem (256 + poly.toNat) (8 * bytes.length + 8 * 1)
          ((m * 256 + b.toNat) <<< 8 ^^^ init.toNat <<< (8 * bytes.length + 8 * 1))
      _ = Spec.polyRem (256 + poly.toNat) 8 (((crc8 poly init bytes).toNat ^^^ b.toNat) <<< 8) := by
        rw [hsum, Nat.mul_one, polyRem_shiftLeft, polyRem_xor, ih, hbyte]
      _ = (crcByte poly (crc8 poly init bytes) b).toNat := by
        rw [← BitVec.toNat_xor, polyRem_shiftLeft_byte, crcByte]

namespace Machine

/-! ### A flipped byte -/

/-- The state with `e` XORed into `FB[i]`, which then counts as written. -/
def State.xorFb (s : State) (i : Nat) (e : Byte) : State :=
  { s with fb := s.fb.setIfInBounds i (some (s.fbByte i ^^^ e)) }

/-- For FB, `xorFb` is a host write of the flipped byte. -/
theorem fbByte_xorFb (s : State) (i j : Nat) (e : Byte) :
    (s.xorFb i e).fbByte j = (s.writeFb i ((s.fbByte i ^^^ e).setWidth 32)).fbByte j := by
  have hfb : (s.xorFb i e).fb = (s.writeFb i ((s.fbByte i ^^^ e).setWidth 32)).fb := by
    rw [writeFb_fb, BitVec.setWidth_setWidth_of_le _ (by decide), BitVec.setWidth_eq, State.xorFb]
  exact fbByte_congr hfb rfl j

/-- The flipped byte. -/
theorem fbByte_xorFb_same (s : State) {i : Nat} (e : Byte) (h : i < 11) :
    (s.xorFb i e).fbByte i = s.fbByte i ^^^ e := by
  rw [fbByte_xorFb, fbByte_writeFb_same _ _ _ h, BitVec.setWidth_setWidth_of_le _ (by decide), BitVec.setWidth_eq]

/-- Every other byte is left alone. -/
theorem fbByte_xorFb_other (s : State) {i j : Nat} (e : Byte) (h : i ≠ j) : (s.xorFb i e).fbByte j = s.fbByte j := by
  rw [fbByte_xorFb, fbByte_writeFb_other _ _ _ _ h]

/-- R101: a byte that is not covered does not change the CRC. -/
theorem crcOf_xorFb_of_le (s : State) {i n : Nat} (e : Byte) (h : n ≤ i) : (s.xorFb i e).crcOf n = s.crcOf n :=
  crcOf_congr rfl rfl fun _ hj => fbByte_xorFb_other s e (by omega)

/-- R105: what is XORed into a covered byte reaches the CRC through the 8 shifts of its own round and of each round
after it. -/
theorem crcOf_xorFb (s : State) {i : Nat} (e : Byte) (h : i < 11) (d : Nat) :
    (s.xorFb i e).crcOf (i + 1 + d) = s.crcOf (i + 1 + d) ^^^ crcShifts s.poly (8 * (d + 1)) e := by
  induction d with
  | zero =>
    rw [Nat.add_zero, crcOf_succ, crcOf_succ, crcOf_xorFb_of_le s e le_rfl, fbByte_xorFb_same s e h, crcByte, crcByte,
      ← BitVec.xor_assoc, crcShifts_xor]
    rfl
  | succ d ih =>
    rw [← Nat.add_assoc, crcOf_succ, crcOf_succ, ih, fbByte_xorFb_other s e (by omega), crcByte, crcByte,
      Nat.mul_add 8 (d + 1), crcShifts_add, ← crcShifts_xor]
    congr 1
    ac_rfl

/-! ### No bit is lost in the register unless POLY is 0 -/

/-- The bits of `c` below bit `j` are 0: its polynomial is a multiple of x^j. -/
def LowBitsZero (j : Nat) (c : Byte) : Prop := ∀ b, b < j → c.getLsbD b = false

/-- A byte other than 0 has a lowest bit that is 1. -/
theorem exists_lowestBit {c : Byte} (h : c ≠ 0#8) : ∃ j, c.getLsbD j = true ∧ LowBitsZero j c := by
  have hex : ∃ j, c.getLsbD j = true := by
    by_contra hnone
    refine h (BitVec.eq_of_getLsbD_eq fun j _ => ?_)
    simpa using fun hj => hnone ⟨j, hj⟩
  exact ⟨Nat.find hex, Nat.find_spec hex, fun b hb => Bool.eq_false_iff.2 (Nat.find_min hex hb)⟩

/-- When POLY's lowest 1 is bit `j`, a shift keeps a register of multiples of x^j that is not 0: a 1 shifted out brings
POLY's bit `j` in, where the register shifts in a 0. -/
theorem crcShift_lowBitsZero {poly c : Byte} {j : Nat} (hj : poly.getLsbD j = true) (hpoly : LowBitsZero j poly)
    (hc : c ≠ 0#8) (hlow : LowBitsZero j c) : crcShift poly c ≠ 0#8 ∧ LowBitsZero j (crcShift poly c) := by
  have hshl : LowBitsZero j (c <<< 1) := fun b hb => by simp [hlow (b - 1) (by omega)]
  unfold crcShift
  split
  · refine ⟨fun h0 => ?_, fun b hb => by rw [BitVec.getLsbD_xor, hshl b hb, hpoly b hb, Bool.xor_false]⟩
    have hbit : (c <<< 1).getLsbD j = false := by
      rcases j with _ | j
      · simp
      · simp [hlow j (by omega)]
    have h1 : (c <<< 1 ^^^ poly).getLsbD j = true := by rw [BitVec.getLsbD_xor, hbit, hj, Bool.false_xor]
    rw [h0] at h1
    simp at h1
  · next h7 =>
    refine ⟨fun h0 => hc (BitVec.eq_of_getLsbD_eq fun b hb => ?_), hshl⟩
    rcases Nat.lt_succ_iff_lt_or_eq.1 hb with hlt | rfl
    · have hb1 : (c <<< 1).getLsbD (b + 1) = c.getLsbD b := by simpa using fun _ => Nat.succ_lt_succ hlt
      rw [← hb1, h0]
      simp
    · simpa using h7

/-- So does any number of shifts. -/
theorem crcShifts_ne_zero_of_lowBitsZero {poly c : Byte} {j : Nat} (hj : poly.getLsbD j = true)
    (hpoly : LowBitsZero j poly) (hc : c ≠ 0#8) (hlow : LowBitsZero j c) (m : Nat) : crcShifts poly m c ≠ 0#8 := by
  induction m generalizing c with
  | zero => exact hc
  | succ m ih =>
    obtain ⟨hne, hlow'⟩ := crcShift_lowBitsZero hj hpoly hc hlow
    exact ih hne hlow'

/-- A single 1 moves up one place, and out of the top it becomes POLY. -/
theorem crcShift_twoPow (poly : Byte) {k : Nat} (hk : k < 8) :
    crcShift poly (BitVec.twoPow 8 k) = if k = 7 then poly else BitVec.twoPow 8 (k + 1) := by
  have hshl : BitVec.twoPow 8 k <<< 1 = BitVec.twoPow 8 (k + 1) := by
    rw [BitVec.twoPow_eq, BitVec.twoPow_eq, BitVec.shiftLeft_add]
  rw [crcShift, BitVec.getLsbD_twoPow, hshl]
  by_cases h7 : k = 7
  · subst h7
    simp [BitVec.twoPow_eq]
  · simp [h7]

/-- A byte with bit `k` set is not 0. -/
theorem twoPow_ne_zero {k : Nat} (hk : k < 8) : BitVec.twoPow 8 k ≠ 0#8 := by
  intro h
  have hbit := BitVec.getLsbD_twoPow (w := 8) k k
  simp [h, hk] at hbit

/-- R105: with POLY other than 0, no x^m is 0 modulo G(x). -/
theorem crcShifts_twoPow_ne_zero {poly : Byte} (hpoly : poly ≠ 0#8) {k : Nat} (hk : k < 8) (m : Nat) :
    crcShifts poly m (BitVec.twoPow 8 k) ≠ 0#8 := by
  induction m generalizing k with
  | zero => exact twoPow_ne_zero hk
  | succ m ih =>
    rw [crcShifts, crcShift_twoPow poly hk]
    split
    · obtain ⟨j, hj, hlow⟩ := exists_lowestBit hpoly
      exact crcShifts_ne_zero_of_lowBitsZero hj hlow hpoly hlow m
    · exact ih (by omega)

/-- With POLY 0 the register only shifts. -/
theorem crcShifts_poly_zero (k : Nat) (c : Byte) : crcShifts 0#8 k c = c <<< k := by
  induction k generalizing c with
  | zero => simp [crcShifts]
  | succ k ih =>
    have hshift : crcShift 0#8 c = c <<< 1 := by simp [crcShift]
    rw [crcShifts, hshift, ih, ← BitVec.shiftLeft_add, Nat.add_comm]

/-- R105: with POLY 0 the CRC over one byte or more is 0. -/
theorem crcOf_poly_zero {s : State} {n : Nat} (hpoly : s.poly = 0#8) (hn : 1 ≤ n) : s.crcOf n = 0#8 := by
  obtain ⟨m, rfl⟩ := Nat.exists_eq_add_of_le' hn
  rw [crcOf_succ, crcByte, hpoly, crcShifts_poly_zero]
  exact BitVec.shiftLeft_eq_zero le_rfl

/-! ### A flipped bit -/

/-- XORing into a byte leaves it the same only if 0 is XORed in. -/
theorem xor_eq_left_iff (a e : Byte) : a ^^^ e = a ↔ e = 0#8 := by
  rw [← BitVec.xor_right_inj (x := e) a, BitVec.xor_zero]

/-- R103: what CRC.CHECK leaves in CRC_VALUE and VALID. -/
theorem exec_crcCheck_result {n : Nat} (s : State) (h : n ≤ 10) :
    ∃ t, exec (.crcCheck n) s = .next t ∧ t.crcv = s.crcOf n ∧ (t.valid = true ↔ s.crcOf n = s.fbByte n) :=
  ⟨_, exec_crcCheck s h, rfl, by simp [validFlag]⟩

/-- R105: a bit flipped in a covered byte changes the CRC by the remainder of its own power of x. -/
theorem crcOf_xorFb_twoPow_toNat (s : State) {i k n : Nat} (hin : i < n) (hn : n ≤ 10) (hk : k < 8) :
    ((s.xorFb i (BitVec.twoPow 8 k)).crcOf n).toNat =
      (s.crcOf n).toNat ^^^ Spec.polyRem (256 + s.poly.toNat) (8 * n) (2 ^ (8 * (n - 1 - i) + k + 8)) := by
  obtain ⟨d, rfl⟩ := Nat.exists_eq_add_of_le (Nat.succ_le_of_lt hin)
  have hpow : 2 ^ (8 * (i + 1 + d - 1 - i) + k + 8) = (BitVec.twoPow 8 k).toNat <<< (8 * (d + 1)) := by
    rw [BitVec.toNat_twoPow_of_lt hk, Nat.shiftLeft_eq, ← Nat.pow_add]
    congr 1
    omega
  have hlt : (BitVec.twoPow 8 k).toNat <<< (8 * (d + 1)) < 2 ^ (8 * (d + 1) + 8) := by
    rw [Nat.shiftLeft_eq, Nat.pow_add, Nat.mul_comm]
    exact Nat.mul_lt_mul_of_pos_left (BitVec.isLt _) (Nat.two_pow_pos _)
  rw [crcOf_xorFb s _ (by omega), BitVec.toNat_xor, hpow, show 8 * (i + 1 + d) = 8 * (d + 1) + 8 * i by omega,
    polyRem_add_of_lt _ _ hlt, polyRem_shiftLeft_byte]

/-- R105: with POLY other than 0, a flipped bit of a covered byte changes the CRC. -/
theorem crcOf_xorFb_twoPow_ne (s : State) {i k n : Nat} (hpoly : s.poly ≠ 0#8) (hin : i < n) (hn : n ≤ 10)
    (hk : k < 8) : (s.xorFb i (BitVec.twoPow 8 k)).crcOf n ≠ s.crcOf n := by
  obtain ⟨d, rfl⟩ := Nat.exists_eq_add_of_le (Nat.succ_le_of_lt hin)
  rw [Nat.succ_eq_add_one, crcOf_xorFb s _ (by omega), Ne, xor_eq_left_iff]
  exact crcShifts_twoPow_ne_zero hpoly hk _

end Machine

/-! ### The obligations -/

/-- Settles O24: CRC.CALC's register is the remainder of the message it covers (`polyRem_message`). -/
theorem crcIsPolynomialRemainder : Obligations.CrcIsPolynomialRemainder := by
  intro n s hn
  have hlen : (s.fbBytes n).length = n := by simp [State.fbBytes]
  have hrem := polyRem_message s.poly s.init (s.fbBytes n)
  rw [hlen] at hrem
  exact ⟨_, exec_crcCalc s hn, hrem.symm⟩

/-- Settles O23: a covered flip changes the CRC and leaves the trailer, a flip of the trailer the other way round; the
change is not 0 unless POLY is. -/
theorem singleBitFlipIsDetected : Obligations.SingleBitFlipIsDetected := by
  intro n i k s t hn hi hk ht hvalid
  obtain ⟨u, hu, hucrc, huvalid⟩ := exec_crcCheck_result s hn
  obtain rfl : u = t := by rw [hu] at ht; cases ht; rfl
  have hpass : s.crcOf n = s.fbByte n := huvalid.1 hvalid
  have he : BitVec.ofNat 8 (2 ^ k) = BitVec.twoPow 8 k := BitVec.eq_of_toNat_eq (BitVec.toNat_twoPow 8 k).symm
  rw [he]
  obtain ⟨t', ht', hcrc, hvalid'⟩ := exec_crcCheck_result (s.xorFb i (BitVec.twoPow 8 k)) hn
  refine ⟨t', ht', fun hin => ?_, fun hin => ?_, fun hpoly => ?_, fun hpoly hn1 => ?_, fun hpoly hin => ?_⟩
  · rw [hcrc, hucrc]
    exact crcOf_xorFb_twoPow_toNat s hin hn hk
  · rw [hcrc, hucrc, crcOf_xorFb_of_le s _ hin.ge]
  · rw [Bool.eq_false_iff, Ne, hvalid']
    rcases Nat.lt_or_eq_of_le hi with hin | rfl
    · rw [fbByte_xorFb_other s _ (by omega), ← hpass]
      exact crcOf_xorFb_twoPow_ne s hpoly hin hn hk
    · rw [crcOf_xorFb_of_le s _ le_rfl, fbByte_xorFb_same s _ (by omega), hpass, eq_comm, xor_eq_left_iff]
      exact twoPow_ne_zero hk
  · rw [hcrc]
    exact crcOf_poly_zero hpoly hn1
  · have hn1 : 1 ≤ n := by omega
    rw [hvalid', fbByte_xorFb_other s _ (by omega), ← hpass, crcOf_poly_zero hpoly hn1]
    exact crcOf_poly_zero hpoly hn1

end Sys2Proof

/-! SUPPORT. What a BFX field is made of (R112), the pseudo-instructions' bus writes (R83) and the idle port (R165). -/

namespace Sys2Proof

open Machine

namespace Machine

/-- R112: `bfx(p, w)` depends on frame bits `p` to `p + w - 1` only. -/
theorem bfx_congr_frameBit {s t : State} {p w : Nat} (h : p + w ≤ 88)
    (hb : ∀ q, p ≤ q → q < p + w → Spec.frameBit s q = Spec.frameBit t q) : s.bfx p w = t.bfx p w := by
  refine Nat.eq_of_testBit_eq fun j => ?_
  rw [bfx_testBit s h, bfx_testBit t h]
  by_cases hj : j < w
  · exact congrArg _ (hb (p + w - 1 - j) (by omega) (by omega))
  · simp [hj]

/-- R83: a LOAD is one write a byte. -/
theorem length_writeFbLines (bytes : List Byte) (i : Nat) : (writeFbLines i bytes).length = bytes.length := by
  induction bytes generalizing i with
  | nil => rfl
  | cons b bytes ih => simp [writeFbLines, ih]

/-- R83: a LOAD writes its bytes in order, from `FB[i]` on. -/
theorem getElem?_writeFbLines (bytes : List Byte) (i k : Nat) :
    (writeFbLines i bytes)[k]? = bytes[k]?.map (writeFbLine (i + k)) := by
  induction bytes generalizing i k with
  | nil => rfl
  | cons b bytes ih =>
    cases k with
    | zero => rfl
    | succ k =>
      rw [writeFbLines, List.getElem?_cons_succ, List.getElem?_cons_succ, ih, Nat.add_right_comm, Nat.add_assoc]

end Machine

/-! ### The obligations -/

/-- Settles O28: the RESULTs are the field's numbers, which have the same bits if the field's bytes or only its own bits
agree. -/
theorem bfxReadsOnlyItsBytes : Obligations.BfxReadsOnlyItsBytes := by
  intro p w s s' _ _ h hagree
  have hbfx : s.bfx p w = s'.bfx p w := by
    rcases hagree with hbytes | hbits
    · exact bfx_congr h hbytes
    · exact bfx_congr_frameBit h hbits
  exact ⟨_, _, exec_bfx s h, exec_bfx s' h, congrArg (BitVec.ofNat 32) hbfx⟩

/-- Settles O4: a LOAD by its bytes (`getElem?_writeFbLines`), every other pseudo-instruction by its own line. -/
theorem pseudoInstructionsExpand : Obligations.PseudoInstructionsExpand := by
  refine ⟨rfl, rfl, rfl, fun b _ => ⟨rfl, rfl, rfl⟩, fun bytes => ⟨length_writeFbLines bytes 0, fun k b hb => ?_⟩⟩
  have hget := getElem?_writeFbLines bytes 0 k
  rw [hb, Nat.zero_add] at hget
  exact hget

/-- Settles O7: a step with nothing to serve answers its own state (`step_idle`). -/
theorem idlePortHoldsState : Obligations.IdlePortHoldsState := fun _ => step_idle

end Sys2Proof
